-- ==== Sys2Proof/Word.lean ====
section
/-! DEFINITION. The word types of the device and their plainest arithmetic (R4, R7: bit 0 is the least
significant bit, values are little-endian). -/

namespace Sys2Proof

/-- A 64-bit scalar register, workspace word or address. -/
abbrev Word := BitVec 64

/-- One 32-bit instruction word (R45). -/
abbrev IWord := BitVec 32

/-- A 1,024-bit vector register or link slot (R13, R211). -/
abbrev VReg := BitVec 1024

/-- One byte of memory. -/
abbrev Byte := BitVec 8

end Sys2Proof
end

