-- ==== Sys2Proof/Config.lean ====
section
/-! DEFINITION. What the part fixes (R2) and the free values: constants with no body, so that no proof can
know one (the assumption log names each). -/

namespace Sys2Proof.Config

/-- Packages of a full blade (R183). -/
abbrev packages : Nat := 4
/-- Application cores of a package (R2, R411). -/
abbrev harts : Nat := 8
/-- Compute dies of a package (R2). -/
abbrev dies : Nat := 8
/-- Rows and columns of a die's mesh (R2: a 24 × 24 mesh). -/
abbrev meshSide : Nat := 24
/-- Cores of a die (R2). -/
abbrev coresPerDie : Nat := 576
/-- Cores of a package (R2). -/
abbrev coresPerPackage : Nat := 4608
/-- Context slots of a core (R187). -/
abbrev slots : Nat := 16
/-- Bytes of a scratchpad: 384 KiB (R2, R251). -/
abbrev scratchpadBytes : Nat := 0x60000
/-- Populated bytes of a die's memory: 96 GiB (R376). -/
abbrev dieMemoryBytes : Nat := 96 * 2 ^ 30
/-- Messages a mailbox heap holds on chip, and in its overflow region (R196). -/
abbrev heapOnChip : Nat := 256
/-- Messages the overflow region holds (R196). -/
abbrev heapOverflow : Nat := 1024
/-- The first address of the local window (R251). -/
abbrev windowBase : Nat := 0xFFFFFFFFF00000
/-- The default wait limit in ticks (R223). -/
abbrev defaultWaitLimit : Nat := 1000000
/-- The aging limit in ticks (R222: a firmware setting, by default 100,000). -/
abbrev agingLimit : Nat := 100000

/-- Commands that a core's copy queue holds (R321). -/
abbrev copyQueue : Nat := 16
/-- Commands that a core's matrix queue holds (DESIGN CHOICE, log 17: the spec gives no size). -/
abbrev mxQueue : Nat := 16

/-- FREE VALUE (log 5): arithmetic-clock cycles that the n-th free choice lets pass (R3). -/
opaque freeCycles : Nat → Nat
/-- FREE VALUE (log 5): time-base ticks that the n-th free choice lets pass (R3, R402). -/
opaque freeTicks : Nat → Nat
/-- FREE VALUE (log 7): which of the writes that R273 allows the n-th choice of a load returns. -/
opaque freeView : Nat → Nat
/-- FREE VALUE (log 7): which of the writes that an `ldx.d` at `sys` might have returned, at the acceptance with that place in
coherence order, every `ld.inv` of those bytes returns (R264): by the oldest of those writes and where the bytes lay when it was made. -/
opaque launchView : (accepted write key : Nat) → Nat
/-- FREE VALUE (log 38): the rounding that a restored cue calls for whose RND is no override (R54, R143). -/
opaque cueRounding : Nat → Nat
/-- FREE VALUE (log 8): whether the n-th choice translates by a held TLB entry or walks afresh (R382, R383). -/
opaque freeBit : Nat → Bool
/-- FREE VALUE (log 8): by which of the translations that R382 and R383 allow the n-th choice goes. -/
opaque freeEntry : Nat → Nat
/-- FREE VALUE (log 9): the handle that the n-th `tnew` writes (R294). -/
opaque freeHandle : Nat → Word
/-- FREE VALUE (log 9): the form code that `tinfo` reads (R300). -/
opaque freeForm : Nat → Word
/-- FREE VALUE (log 9): whether `tnew` finds storage (R311). -/
opaque freeStorage : Nat → Bool
/-- FREE VALUE (log 12, 16): what stands in a device's reply where no completion carries it (R415), and the token of a
system call (R408). -/
opaque freeToken : Nat → Word

/-- FREE VALUE (log 9): the physical address of the storage of a tensor's element, by its key: what an error there is logged with
(R294, R353, R369). -/
opaque tensorAddr : Nat → Word
/-- FREE VALUE (log 20): the macro and row, as an error log's ADDR gives them, of a row of a core's chunk (R369). -/
opaque macroRow : (core row : Nat) → Word

/-- FREE VALUE (log 35): where a message of a core's overflow region stands, by its stamp, in units of 64 bytes of the core's die (R196). -/
opaque overflowAddr : (core stamp : Nat) → Nat
/-- FREE VALUE (log 35): where a loop body of a core's loop save region stands, in units of 1,024 bytes of the core's die (R421). -/
opaque saveAddr : (core wp : Nat) → (withSeq : Bool) → Nat

/-- FREE VALUE (log 15): the frame number on its new die that the n-th move of a page takes (R384). -/
opaque freeFrame : Nat → Nat

/-- UNINTERPRETED (log 11): SHA-384 of a byte string (R417, R419). -/
opaque sha384 : List Byte → BitVec 384
/-- UNINTERPRETED (log 11): ECDSA P-384 verification of a signature over bytes under a public key (R417). -/
opaque ecdsaVerifies : (key message signature : List Byte) → Bool
/-- UNINTERPRETED (log 11): LMS verification (R417, LMS_SHA256_M32_H15 with LMOTS_SHA256_N32_W4). -/
opaque lmsVerifies : (key message signature : List Byte) → Bool
/-- UNINTERPRETED (log 11): the device identity key's ECDSA P-384 signature of an attestation report (R419). -/
opaque attestationSignature : List Byte → List Byte
/-- UNINTERPRETED (log 11): SHA-384 of the device identity public key (R419). -/
opaque identityKeyDigest : BitVec 384
/-- UNINTERPRETED (log 11): the fused minimum SVN of an image TYPE (R417). -/
opaque fusedSvn : Nat → Nat
/-- UNINTERPRETED (log 11): the fused digests of the ECDSA and of the LMS public key (R417). -/
opaque fusedEcdsa : BitVec 384
opaque fusedLms : BitVec 384
/-- UNINTERPRETED (log 11): the part number in an attestation report (R419). -/
opaque partNumber : Word
/-- UNINTERPRETED (log 11): the ROM's own version, which MR0 holds (R419). -/
opaque romVersion : BitVec 384

end Sys2Proof.Config
end

