-- ==== Sys2Proof/Syntax.lean ====
section
/-! DEFINITION. The syntax of Gulsin: operands, the extended form's fields, and Instr, one constructor for
every row of the table of operations and events (R58, R59 and spec/95). The first 306 constructors are
instruction forms; the rest are the events of the part's other agents, whose operands name what they act on. -/

namespace Sys2Proof

/-- The four mesh directions, in the order of their codes (R56). -/
inductive Dir where
  | n | e | s | w
  deriving DecidableEq, Repr

/-- A scalar operand field (R18). -/
inductive SOpd where
  /-- w0–w23 -/
  | w (n : Fin 24)
  /-- q0–q3, coded 24–27 -/
  | q (n : Fin 4)
  /-- the links, coded 28–31 -/
  | link (d : Dir)
  deriving DecidableEq, Repr

/-- A vector operand field (R19). -/
inductive VOpd where
  /-- v0–v15 -/
  | v (n : Fin 16)
  /-- the vector views of q0–q3, coded 16–19 -/
  | q (n : Fin 4)
  /-- the links, coded 20–23 -/
  | link (d : Dir)
  /-- 24–31, reserved -/
  | rsv (n : Fin 8)
  deriving DecidableEq, Repr

/-- A 7-bit operand specifier of the extended form (R52). -/
inductive Spec where
  | s (o : SOpd)
  | v (o : VOpd)
  | t (n : Fin 64)
  deriving DecidableEq, Repr

/-- The memory-model scopes, narrowest first (R51, R183). -/
inductive Scope where
  | core | clu | die | pkg | sys
  deriving DecidableEq, Repr

/-- Rounding modes (R87). -/
inductive Rm where
  | rne | rtz | rup | rdn | rna
  deriving DecidableEq, Repr

/-- Element formats by their codes 0x0 to 0xF (R53). -/
inductive Fmt where
  | none | e2m1 | e2m1x | e2m3 | e3m2 | e4m3 | e5m2 | bf16 | fp16 | fp32 | int8 | uint8 | int4 | uint4 | int2 | bin1
  deriving DecidableEq, Repr

/-- The floating-point lane type suffixes `.f32`, `.bf16`, `.f16` (R59). -/
inductive FType where
  | f32 | bf16 | f16
  deriving DecidableEq, Repr

/-- The width suffixes `.b`, `.h`, `.w`, `.d` (R59). -/
inductive WType where
  | b | h | w | d
  deriving DecidableEq, Repr

/-- The packed FP8 suffixes (R147). -/
inductive F8Type where
  | e4m3 | e5m2
  deriving DecidableEq, Repr

/-- The fields of an extended form that R59's function leaves (R51); RO = none and MASK above 23 are not
values of it, since R55 refuses them at decoding. -/
structure Ext where
  od : Spec
  oa : Spec
  ob : Spec
  oc : Spec
  z : Bool
  me : Bool
  mask : Fin 24
  et : Fmt
  ro : Option Rm
  scp : Scope
  acq : Bool
  rel : Bool
  imm : BitVec 32
  deriving DecidableEq, Repr

/-- A context of a core: one in a slot, or one parked in a workspace (R187). -/
inductive CtxRef where
  | slot (k : Nat)
  | parked (wp : Nat)
  deriving DecidableEq, Repr

/-- A band of a placement (R185): its first virtual row, height, die, and physical origin. -/
structure Band where
  row0 : Nat
  height : Nat
  die : Nat
  x0 : Nat
  y0 : Nat
  deriving DecidableEq, Repr

/-- What the stagehands settle when they accept a launch (R185, R191, R219): the tag, the bands, the image's
handler addresses, its `.tile` entries (entry, offset, bytes), and ASPACE for the kernel's address space. -/
structure LaunchPlan where
  tag : Nat
  bands : List Band
  handlers : List Word
  tiles : List (Nat × Nat × Nat)
  aspace : Word
  deriving DecidableEq, Repr

/-- The core registers that the control die writes when it binds a kernel (R265, R409). -/
structure BindRegs where
  rgn : List Word
  irqwin : Word
  deriving DecidableEq, Repr

/-- An array instance with an error log (R369, R414): package, kind 1–6, instance. -/
structure ArrayId where
  pkg : Nat
  kind : Nat
  inst : Nat
  deriving DecidableEq, Repr

/-- Registers the control die writes that have no behaviour of their own (R5, R392, R411). -/
inductive DieReg where
  | sysqIrq (pkg : Nat)
  | sysRval (pkg hart : Nat)
  | sdva (pkg : Nat)
  | movCfg (pkg : Nat)
  | fwdCfg (pkg : Nat)
  | injAdr (a : ArrayId)
  | wdlim (core : Nat)
  | rgn (core n : Nat)
  | aspace (core : Nat)
  | irqwin (core : Nat)
  | pfvec (core : Nat)
  deriving DecidableEq, Repr

/-- A signed image as the boot ROM reads it (R417, R418): the header bytes, the payload, the LMS signature and
the two public keys. -/
structure BootImage where
  header : List Byte
  payload : List Byte
  lmsSig : List Byte
  ecdsaKey : List Byte
  lmsKey : List Byte
  deriving DecidableEq, Repr

/-- The instructions and events of the part, one constructor for each row of its table. -/
inductive Instr where
  /-- ADD (R105): Writes the 64-bit wrapped sum of two scalar registers. -/
  | add (d a b : SOpd)
  /-- SUB (R105): Writes the 64-bit wrapped difference of two scalar registers. -/
  | sub (d a b : SOpd)
  /-- MUL (R105): Writes the low 64 bits of the product. -/
  | mul (d a b : SOpd)
  /-- MULH (R105): Writes bits [127:64] of the signed 128-bit product. -/
  | mulh (d a b : SOpd)
  /-- DIV (R106): Writes the signed quotient truncated toward zero, with the division-by-zero rules. -/
  | div (d a b : SOpd)
  /-- DIVU (R106): Writes the unsigned quotient, with the division-by-zero rules. -/
  | divu (d a b : SOpd)
  /-- REM (R106): Writes the signed remainder with the sign of the dividend. -/
  | rem (d a b : SOpd)
  /-- REMU (R106): Writes the unsigned remainder. -/
  | remu (d a b : SOpd)
  /-- AND (R105): Writes the bitwise AND. -/
  | and (d a b : SOpd)
  /-- OR (R105): Writes the bitwise OR. -/
  | or (d a b : SOpd)
  /-- XOR (R105): Writes the bitwise XOR. -/
  | xor (d a b : SOpd)
  /-- ANDN (R105): Writes a AND NOT b. -/
  | andn (d a b : SOpd)
  /-- SLL (R105): Shifts left by b[5:0]. -/
  | sll (d a b : SOpd)
  /-- SRL (R105): Shifts right logically by b[5:0]. -/
  | srl (d a b : SOpd)
  /-- SRA (R105): Shifts right arithmetically by b[5:0]. -/
  | sra (d a b : SOpd)
  /-- ROR (R105): Rotates right by b[5:0]. -/
  | ror (d a b : SOpd)
  /-- MIN (R105): Writes the signed minimum. -/
  | min (d a b : SOpd)
  /-- MAX (R105): Writes the signed maximum. -/
  | max (d a b : SOpd)
  /-- SLT (R105): Writes 1 when a is signed-less than b. -/
  | slt (d a b : SOpd)
  /-- SLTU (R105): Writes 1 when a is unsigned-less than b. -/
  | sltu (d a b : SOpd)
  /-- SEQ (R105): Writes 1 when a equals b. -/
  | seq (d a b : SOpd)
  /-- SNE (R105): Writes 1 when a differs from b. -/
  | sne (d a b : SOpd)
  /-- CMOVZ (R105): Moves a to the destination when b is zero. -/
  | cmovz (d a b : SOpd)
  /-- CMOVN (R105): Moves a to the destination when b is nonzero. -/
  | cmovn (d a b : SOpd)
  /-- ADDSAT (R105): Writes the signed sum clamped to 64 bits, counting EVC14 on a clamp. -/
  | addsat (d a b : SOpd)
  /-- POPC (R107): Counts the 1 bits. -/
  | popc (d a : SOpd)
  /-- CLZ (R107): Counts leading zero bits. -/
  | clz (d a : SOpd)
  /-- CTZ (R107): Counts trailing zero bits. -/
  | ctz (d a : SOpd)
  /-- BREV (R107): Reverses the bit order. -/
  | brev (d a : SOpd)
  /-- BSWAP (R107): Reverses the byte order. -/
  | bswap (d a : SOpd)
  /-- MKM (R108): Builds a lane mask of n bits starting at bit s. -/
  | mkm (d a b : SOpd)
  /-- FSLI (R107): Funnel-shifts the 128-bit pair a:b left by the immediate count. -/
  | fsli (d a b : SOpd) (c : BitVec 6)
  /-- FSRI (R107): Funnel-shifts the 128-bit pair a:b right by the immediate count. -/
  | fsri (d a b : SOpd) (c : BitVec 6)
  /-- ADDI (R109): Adds a sign-extended 14-bit immediate. -/
  | addi (d a : SOpd) (imm : BitVec 14)
  /-- ADDI_LITERAL (R110): Adds a 64-bit literal in the three-word form. -/
  | addiLiteral (d a : SOpd) (lit : Word)
  /-- ANDI (R109): ANDs with the sign-extended immediate. -/
  | andi (d a : SOpd) (imm : BitVec 14)
  /-- ORI (R109): ORs with the sign-extended immediate. -/
  | ori (d a : SOpd) (imm : BitVec 14)
  /-- XORI (R109): XORs with the sign-extended immediate. -/
  | xori (d a : SOpd) (imm : BitVec 14)
  /-- SLTI (R109): Writes 1 when a is signed-less than the immediate. -/
  | slti (d a : SOpd) (imm : BitVec 14)
  /-- SLLI (R111): Shifts left by an immediate count. -/
  | slli (d a : SOpd) (c : BitVec 6)
  /-- SRLI (R111): Shifts right logically by an immediate count. -/
  | srli (d a : SOpd) (c : BitVec 6)
  /-- SRAI (R111): Shifts right arithmetically by an immediate count. -/
  | srai (d a : SOpd) (c : BitVec 6)
  /-- BFX (R112): Extracts a bit field, zero- or sign-extended by X. -/
  | bfx (d a : SOpd) (p wm1 : BitVec 6) (x : Bool)
  /-- BFI (R112): Inserts the low bits of a into a field of the destination. -/
  | bfi (d a : SOpd) (p wm1 : BitVec 6)
  /-- LPC (R113): Writes the page address of the lpc plus a signed page count. -/
  | lpc (d : SOpd) (page : BitVec 19)
  /-- JALR (R116): Jumps to register plus scaled offset, writing the return address. -/
  | jalr (d a : SOpd) (imm : BitVec 14)
  /-- MFCR (R125): Reads a control register into a scalar register. -/
  | mfcr (d : SOpd) (cr : BitVec 12)
  /-- MTCR (R125): Writes a scalar register to a control register under its access codes. -/
  | mtcr (cr : BitVec 12) (a : SOpd)
  /-- VLOOP (R176): Makes the next k vector instructions a loop body run n times, n immediate. -/
  | vloop (k : BitVec 5) (n : BitVec 9)
  /-- VLOOP_REGISTER (R176): Makes the next k vector instructions a loop body run w[A][31:0] times. -/
  | vloopRegister (k : BitVec 5) (a : SOpd)
  /-- BEQ (R115): Branches when a equals b. -/
  | beq (a b : SOpd) (disp : BitVec 14)
  /-- BNE (R115): Branches when a differs from b. -/
  | bne (a b : SOpd) (disp : BitVec 14)
  /-- BLT (R115): Branches on signed less-than. -/
  | blt (a b : SOpd) (disp : BitVec 14)
  /-- BGE (R115): Branches on signed greater-or-equal. -/
  | bge (a b : SOpd) (disp : BitVec 14)
  /-- BLTU (R115): Branches on unsigned less-than. -/
  | bltu (a b : SOpd) (disp : BitVec 14)
  /-- BGEU (R115): Branches on unsigned greater-or-equal. -/
  | bgeu (a b : SOpd) (disp : BitVec 14)
  /-- BANY (R115): Branches when any bit of a AND g is set. -/
  | bany (a b : SOpd) (disp : BitVec 14)
  /-- BALL (R115): Branches when every bit of g is set in a. -/
  | ball (a b : SOpd) (disp : BitVec 14)
  /-- BNONE (R115): Branches when no bit of a AND g is set. -/
  | bnone (a b : SOpd) (disp : BitVec 14)
  /-- J (R116): Jumps PC-relative. -/
  | j (disp : BitVec 24)
  /-- JAL (R116): Jumps PC-relative and writes the return address to w23. -/
  | jal (disp : BitVec 24)
  /-- CUE (R27): Writes the payload into the cue latch and sets STATUS.PP for the next instruction. -/
  | cue (pay : BitVec 24)
  /-- LD_B (R117): Loads a sign-extended byte. -/
  | ldB (d base : SOpd) (off : BitVec 14)
  /-- LD_BZ (R117): Loads a zero-extended byte. -/
  | ldBz (d base : SOpd) (off : BitVec 14)
  /-- LD_H (R117): Loads a sign-extended halfword. -/
  | ldH (d base : SOpd) (off : BitVec 14)
  /-- LD_HZ (R117): Loads a zero-extended halfword. -/
  | ldHz (d base : SOpd) (off : BitVec 14)
  /-- LD_W (R117): Loads a sign-extended word. -/
  | ldW (d base : SOpd) (off : BitVec 14)
  /-- LD_WZ (R117): Loads a zero-extended word. -/
  | ldWz (d base : SOpd) (off : BitVec 14)
  /-- LD_D (R117): Loads a doubleword as a plain access. -/
  | ldD (d base : SOpd) (off : BitVec 14)
  /-- LD_INV (R264): Loads a doubleword as an invariant load. -/
  | ldInv (d base : SOpd) (off : BitVec 14)
  /-- ST_B (R117): Stores a byte. -/
  | stB (d base : SOpd) (off : BitVec 14)
  /-- ST_H (R117): Stores a halfword. -/
  | stH (d base : SOpd) (off : BitVec 14)
  /-- ST_W (R117): Stores a word. -/
  | stW (d base : SOpd) (off : BitVec 14)
  /-- ST_D (R117): Stores a doubleword. -/
  | stD (d base : SOpd) (off : BitVec 14)
  /-- VLD (R170): Loads 128 aligned bytes into a vector register. -/
  | vld (d : VOpd) (base : BitVec 5) (off : BitVec 14)
  /-- VST (R170): Stores a vector register to 128 aligned bytes. -/
  | vst (d : VOpd) (base : BitVec 5) (off : BitVec 14)
  /-- YIELD (R131): Yield point at which the core may issue another ready context. -/
  | yield
  /-- WAIT (R132): Gives up the issue slot until a deadline or a wake. -/
  | wait (d a : SOpd)
  /-- END (R133): Completes the activation, empties the queues and releases the slot. -/
  | endAct
  /-- TRAP (R134): Raises the software trap as an upcall. -/
  | trap (code : BitVec 15)
  /-- UPRET (R38): Checks the upcall record and resumes at EPC. -/
  | upret
  /-- WPX (R136): Switches the context to another workspace. -/
  | wpx (a : SOpd)
  /-- IFENCE (R137): Waits for earlier vector instances and stores so later fetches see them. -/
  | ifence
  /-- LDX_W (R121): Scoped load of a sign-extended word. -/
  | ldxW (x : Ext)
  /-- LDX_D (R121): Scoped load of a doubleword. -/
  | ldxD (x : Ext)
  /-- STX_W (R121): Scoped store of a word. -/
  | stxW (x : Ext)
  /-- STX_D (R121): Scoped store of a doubleword. -/
  | stxD (x : Ext)
  /-- AMADD_W (R122): Atomic 32-bit add. -/
  | amaddW (x : Ext)
  /-- AMADD_D (R122): Atomic 64-bit add. -/
  | amaddD (x : Ext)
  /-- AMMIN_W (R122): Atomic 32-bit signed minimum. -/
  | amminW (x : Ext)
  /-- AMMIN_D (R122): Atomic 64-bit signed minimum. -/
  | amminD (x : Ext)
  /-- AMMAX_W (R122): Atomic 32-bit signed maximum. -/
  | ammaxW (x : Ext)
  /-- AMMAX_D (R122): Atomic 64-bit signed maximum. -/
  | ammaxD (x : Ext)
  /-- AMCAS_W (R122): Atomic 32-bit compare and swap. -/
  | amcasW (x : Ext)
  /-- AMCAS_D (R122): Atomic 64-bit compare and swap. -/
  | amcasD (x : Ext)
  /-- AMAND_D (R122): Atomic 64-bit AND. -/
  | amandD (x : Ext)
  /-- AMOR_D (R122): Atomic 64-bit OR. -/
  | amorD (x : Ext)
  /-- AMXOR_D (R122): Atomic 64-bit XOR. -/
  | amxorD (x : Ext)
  /-- AMSWAP_D (R122): Atomic 64-bit swap. -/
  | amswapD (x : Ext)
  /-- AMLD_D (R121): Scoped load of a doubleword by address register. -/
  | amldD (x : Ext)
  /-- AMST_D (R121): Scoped store of a doubleword by address register. -/
  | amstD (x : Ext)
  /-- AMFADD_W (R123): Atomic FP32 add at the home, RNE, counting nothing. -/
  | amfaddW (x : Ext)
  /-- CURTN (R284): Performs a release half then an acquire half at the scope. -/
  | curtn (x : Ext)
  /-- CURTN_REL (R284): Performs a release half at the scope. -/
  | curtnRel (x : Ext)
  /-- CURTN_ACQ (R284): Performs an acquire half at the scope. -/
  | curtnAcq (x : Ext)
  /-- SUCCGO (R285): Adds 1 to the kernel's succgo count. -/
  | succgo (x : Ext)
  /-- PREDWAIT (R286): Waits for the predecessor's end, then acquires and reports its outcome. -/
  | predwait (x : Ext)
  /-- BAR_ARR (R238): Arrives at a barrier generation with contributions and optional gather. -/
  | barArr (x : Ext)
  /-- BAR_WAIT (R239): Waits until a barrier generation has completed. -/
  | barWait (x : Ext)
  /-- BAR_ADD (R239): Adds to a barrier's pending-byte count at the tree. -/
  | barAdd (x : Ext)
  /-- OWN_GIVE (R260): Passes a tile's buffer to another core of the cluster. -/
  | ownGive (x : Ext)
  /-- SEND (R230): Sends a message to a virtual core by index. -/
  | send (x : Ext)
  /-- SENDH (R230): Sends a message to the owner of a data address. -/
  | sendh (x : Ext)
  /-- SENDK (R235): Sends a key-routed update under a key map. -/
  | sendk (x : Ext)
  /-- SPAWN (R233): Offers work to an IDLE slot of the kernel on a target core. -/
  | spawn (x : Ext)
  /-- GAINADD (R231): Sends a gain update to a target core. -/
  | gainadd (x : Ext)
  /-- RESADD (R232): Adds a scalar or vector lanes into the kernel's residual pair on the core. -/
  | resadd (x : Ext)
  /-- GANG (R244): Requests a gang of a given shape and waits for it to form. -/
  | gang (x : Ext)
  /-- UNGANG (R245): Disbands the gang that executes it. -/
  | ungang (x : Ext)
  /-- MYID (R243): Writes an identity value selected by the immediate. -/
  | myid (x : Ext)
  /-- TRC_ADD (R240): Holds a contribution to a barrier under an operation. -/
  | trcAdd (x : Ext)
  /-- TRC_GET (R242): Reads a tree result into a scalar register. -/
  | trcGet (x : Ext)
  /-- KMAP (R234): Installs a key map from a descriptor. -/
  | kmap (x : Ext)
  /-- DEFH (R236): Sets or clears the kernel's default handler. -/
  | defh (x : Ext)
  /-- LCLAIM (R246): Takes the link claim if free. -/
  | lclaim (d : SOpd)
  /-- LFREE (R246): Releases the link claim if held. -/
  | lfree
  /-- LPOLL (R246): Writes a snapshot of the link state. -/
  | lpoll (d : SOpd)
  /-- VADD (R144): Adds floating-point lanes with one rounding. -/
  | vadd (t : FType) (d a b : VOpd)
  /-- VADD_EXT (R144): Extended form of vadd with mask, zeroing and rounding override. -/
  | vaddExt (t : FType) (x : Ext)
  /-- VSUB (R144): Subtracts floating-point lanes. -/
  | vsub (t : FType) (d a b : VOpd)
  /-- VSUB_EXT (R144): Extended form of vsub. -/
  | vsubExt (t : FType) (x : Ext)
  /-- VMUL (R144): Multiplies floating-point lanes. -/
  | vmul (t : FType) (d a b : VOpd)
  /-- VMUL_EXT (R144): Extended form of vmul. -/
  | vmulExt (t : FType) (x : Ext)
  /-- VFMA (R144): Fused multiply-add with the addend from the destination. -/
  | vfma (t : FType) (d a b : VOpd)
  /-- VFMA_EXT (R145): Extended form of vfma with optional addend in OC. -/
  | vfmaExt (t : FType) (x : Ext)
  /-- VFMS (R144): Fused c minus a times b. -/
  | vfms (t : FType) (d a b : VOpd)
  /-- VFMS_EXT (R145): Extended form of vfms. -/
  | vfmsExt (t : FType) (x : Ext)
  /-- VMIN (R146): Lane minimum without rounding. -/
  | vmin (t : FType) (d a b : VOpd)
  /-- VMIN_EXT (R146): Extended form of vmin. -/
  | vminExt (t : FType) (x : Ext)
  /-- VMAX (R146): Lane maximum without rounding. -/
  | vmax (t : FType) (d a b : VOpd)
  /-- VMAX_EXT (R146): Extended form of vmax. -/
  | vmaxExt (t : FType) (x : Ext)
  /-- VABS (R146): Clears the sign bit of each lane. -/
  | vabs (t : FType) (d a : VOpd)
  /-- VABS_EXT (R146): Extended form of vabs. -/
  | vabsExt (t : FType) (x : Ext)
  /-- VNEG (R146): Inverts the sign bit of each lane. -/
  | vneg (t : FType) (d a : VOpd)
  /-- VNEG_EXT (R146): Extended form of vneg. -/
  | vnegExt (t : FType) (x : Ext)
  /-- VADD_X (R148): Exact-pair add by twosum. -/
  | vaddX (d a b : VOpd)
  /-- VADD_X_EXT (R148): Extended form of vadd.x. -/
  | vaddXExt (x : Ext)
  /-- VSUB_X (R148): Exact-pair subtract by twosum. -/
  | vsubX (d a b : VOpd)
  /-- VSUB_X_EXT (R148): Extended form of vsub.x. -/
  | vsubXExt (x : Ext)
  /-- VMUL_X (R148): Exact-pair multiply by twoprod. -/
  | vmulX (d a b : VOpd)
  /-- VMUL_X_EXT (R148): Extended form of vmul.x. -/
  | vmulXExt (x : Ext)
  /-- VDWADD (R150): Double-word add of pairs. -/
  | vdwadd (d a b : VOpd)
  /-- VDWADD_EXT (R150): Extended form of vdwadd. -/
  | vdwaddExt (x : Ext)
  /-- VDWMUL (R150): Double-word multiply of pairs. -/
  | vdwmul (d a b : VOpd)
  /-- VDWMUL_EXT (R150): Extended form of vdwmul. -/
  | vdwmulExt (x : Ext)
  /-- VDWFMA (R150): Double-word fused multiply-add of pairs. -/
  | vdwfma (d a b : VOpd)
  /-- VDWFMA_EXT (R150): Extended form of vdwfma. -/
  | vdwfmaExt (x : Ext)
  /-- VDWROUND (R152): Rounds each pair to one FP32 value. -/
  | vdwround (d a : VOpd)
  /-- VDWROUND_EXT (R152): Extended form of vdwround with rounding override. -/
  | vdwroundExt (x : Ext)
  /-- VCSUM (R153): Compensated sum of lanes into lane 0 of a pair. -/
  | vcsum (d a : VOpd)
  /-- VCSUM_EXT (R153): Extended form of vcsum. -/
  | vcsumExt (x : Ext)
  /-- VCDOT (R153): Compensated dot product into lane 0 of a pair. -/
  | vcdot (d a b : VOpd)
  /-- VCDOT_EXT (R153): Extended form of vcdot. -/
  | vcdotExt (x : Ext)
  /-- VSUM (R154): Sums lanes in order into lane 0. -/
  | vsum (t : FType) (d a : VOpd)
  /-- VSUM_EXT (R154): Extended form of vsum. -/
  | vsumExt (t : FType) (x : Ext)
  /-- VRMAX (R155): Reduces to the largest active lane. -/
  | vrmax (t : FType) (d a : VOpd)
  /-- VRMAX_EXT (R155): Extended form of vrmax. -/
  | vrmaxExt (t : FType) (x : Ext)
  /-- VRMIN (R155): Reduces to the smallest active lane. -/
  | vrmin (t : FType) (d a : VOpd)
  /-- VRMIN_EXT (R155): Extended form of vrmin. -/
  | vrminExt (t : FType) (x : Ext)
  /-- VSCAN (R154): Inclusive prefix sum of lanes. -/
  | vscan (t : FType) (d a : VOpd)
  /-- VSCAN_EXT (R154): Extended form of vscan. -/
  | vscanExt (t : FType) (x : Ext)
  /-- VGMAX (R155): Writes the largest magnitude of each group of lanes. -/
  | vgmax (t : FType) (d a : VOpd) (g : BitVec 5)
  /-- VGMAX_EXT (R155): Extended form of vgmax. -/
  | vgmaxExt (t : FType) (x : Ext)
  /-- VIADD (R156): Integer lane add. -/
  | viadd (t : WType) (d a b : VOpd)
  /-- VIADD_EXT (R156): Extended form of viadd. -/
  | viaddExt (t : WType) (x : Ext)
  /-- VISUB (R156): Integer lane subtract. -/
  | visub (t : WType) (d a b : VOpd)
  /-- VISUB_EXT (R156): Extended form of visub. -/
  | visubExt (t : WType) (x : Ext)
  /-- VIMUL (R156): Integer lane multiply, low bits. -/
  | vimul (t : WType) (d a b : VOpd)
  /-- VIMUL_EXT (R156): Extended form of vimul. -/
  | vimulExt (t : WType) (x : Ext)
  /-- VIMIN (R156): Signed integer lane minimum. -/
  | vimin (t : WType) (d a b : VOpd)
  /-- VIMIN_EXT (R156): Extended form of vimin. -/
  | viminExt (t : WType) (x : Ext)
  /-- VIMAX (R156): Signed integer lane maximum. -/
  | vimax (t : WType) (d a b : VOpd)
  /-- VIMAX_EXT (R156): Extended form of vimax. -/
  | vimaxExt (t : WType) (x : Ext)
  /-- VIAND (R156): Lane AND. -/
  | viand (t : WType) (d a b : VOpd)
  /-- VIAND_EXT (R156): Extended form of viand. -/
  | viandExt (t : WType) (x : Ext)
  /-- VIOR (R156): Lane OR. -/
  | vior (t : WType) (d a b : VOpd)
  /-- VIOR_EXT (R156): Extended form of vior. -/
  | viorExt (t : WType) (x : Ext)
  /-- VIXOR (R156): Lane XOR. -/
  | vixor (t : WType) (d a b : VOpd)
  /-- VIXOR_EXT (R156): Extended form of vixor. -/
  | vixorExt (t : WType) (x : Ext)
  /-- VISLL (R156): Lane shift left. -/
  | visll (t : WType) (d a b : VOpd)
  /-- VISLL_EXT (R156): Extended form of visll. -/
  | visllExt (t : WType) (x : Ext)
  /-- VISRL (R156): Lane logical shift right. -/
  | visrl (t : WType) (d a b : VOpd)
  /-- VISRL_EXT (R156): Extended form of visrl. -/
  | visrlExt (t : WType) (x : Ext)
  /-- VIFSL (R156): Lane funnel shift left by the addend-rule count. -/
  | vifsl (t : WType) (d a b : VOpd)
  /-- VIFSL_EXT (R156): Extended form of vifsl. -/
  | vifslExt (t : WType) (x : Ext)
  /-- VIFSR (R156): Lane funnel shift right by the addend-rule count. -/
  | vifsr (t : WType) (d a b : VOpd)
  /-- VIFSR_EXT (R156): Extended form of vifsr. -/
  | vifsrExt (t : WType) (x : Ext)
  /-- VEQ (R157): Writes a mask of equal floating-point lanes. -/
  | veq (t : FType) (d : SOpd) (a b : VOpd)
  /-- VEQ_EXT (R157): Extended form of veq. -/
  | veqExt (t : FType) (x : Ext)
  /-- VLT (R157): Writes a mask of less-than lanes. -/
  | vlt (t : FType) (d : SOpd) (a b : VOpd)
  /-- VLT_EXT (R157): Extended form of vlt. -/
  | vltExt (t : FType) (x : Ext)
  /-- VLE (R157): Writes a mask of less-or-equal lanes. -/
  | vle (t : FType) (d : SOpd) (a b : VOpd)
  /-- VLE_EXT (R157): Extended form of vle. -/
  | vleExt (t : FType) (x : Ext)
  /-- VNE (R157): Writes a mask of unequal lanes. -/
  | vne (t : FType) (d : SOpd) (a b : VOpd)
  /-- VNE_EXT (R157): Extended form of vne. -/
  | vneExt (t : FType) (x : Ext)
  /-- VUNO (R157): Writes a mask of lanes where either operand is NaN. -/
  | vuno (t : FType) (d : SOpd) (a b : VOpd)
  /-- VUNO_EXT (R157): Extended form of vuno. -/
  | vunoExt (t : FType) (x : Ext)
  /-- VIEQ (R158): Writes a mask of equal integer lanes. -/
  | vieq (t : WType) (d : SOpd) (a b : VOpd)
  /-- VIEQ_EXT (R158): Extended form of vieq. -/
  | vieqExt (t : WType) (x : Ext)
  /-- VILT (R158): Writes a mask of signed less-than integer lanes. -/
  | vilt (t : WType) (d : SOpd) (a b : VOpd)
  /-- VILT_EXT (R158): Extended form of vilt. -/
  | viltExt (t : WType) (x : Ext)
  /-- VSEL (R159): Selects lanes of two registers by a mask. -/
  | vsel (x : Ext)
  /-- VCVT (R161): Converts elements between cue-given formats with optional scales. -/
  | vcvt (d a b : VOpd)
  /-- VCVT_EXT (R162): Extended form of vcvt with part number, tensor scale and mask. -/
  | vcvtExt (x : Ext)
  /-- VCVTI (R163): Converts floating-point lanes to signed integers. -/
  | vcvti (d a : VOpd)
  /-- VCVTI_EXT (R163): Extended form of vcvti. -/
  | vcvtiExt (x : Ext)
  /-- VCVTF (R163): Converts signed integer lanes to floating point. -/
  | vcvtf (d a : VOpd)
  /-- VCVTF_EXT (R163): Extended form of vcvtf. -/
  | vcvtfExt (x : Ext)
  /-- VPACK (R163): Rounds two FP32 registers into one 16-bit-lane register. -/
  | vpack (d a b : VOpd)
  /-- VPACK_EXT (R163): Extended form of vpack. -/
  | vpackExt (x : Ext)
  /-- VRCP (R97): 14-bit reciprocal approximation. -/
  | vrcp (d a : VOpd)
  /-- VRCP_EXT (R164): Extended form of vrcp. -/
  | vrcpExt (x : Ext)
  /-- VRSQ (R98): 14-bit reciprocal square root approximation. -/
  | vrsq (d a : VOpd)
  /-- VRSQ_EXT (R164): Extended form of vrsq. -/
  | vrsqExt (x : Ext)
  /-- VEXP2 (R165): 14-bit base-2 exponential approximation. -/
  | vexp2 (d a : VOpd)
  /-- VEXP2_EXT (R164): Extended form of vexp2. -/
  | vexp2Ext (x : Ext)
  /-- VMOV (R166): Copies a vector register. -/
  | vmov (d a : VOpd)
  /-- VMOV_EXT (R166): Extended form of vmov. -/
  | vmovExt (x : Ext)
  /-- VBCST (R166): Broadcasts a scalar into every lane. -/
  | vbcst (t : WType) (d : VOpd) (a : SOpd)
  /-- VBCST_EXT (R166): Extended form of vbcst. -/
  | vbcstExt (t : WType) (x : Ext)
  /-- VBCST_LITERAL (R166): Broadcasts the low bits of a 64-bit literal. -/
  | vbcstLiteral (t : WType) (x : Ext) (lit : Word)
  /-- VPERM (R166): Permutes lanes by an index vector. -/
  | vperm (t : WType) (d a b : VOpd)
  /-- VPERM_EXT (R166): Extended form of vperm. -/
  | vpermExt (t : WType) (x : Ext)
  /-- VINS (R166): Inserts a scalar into one lane. -/
  | vins (t : WType) (d : VOpd) (a b : SOpd)
  /-- VINS_EXT (R166): Extended form of vins. -/
  | vinsExt (t : WType) (x : Ext)
  /-- VEXT (R166): Extracts one lane into a scalar register. -/
  | vext (t : WType) (d : SOpd) (a : VOpd) (b : SOpd)
  /-- VEXT_EXT (R166): Extended form of vext. -/
  | vextExt (t : WType) (x : Ext)
  /-- VCOMP (R167): Compresses selected lanes to the bottom. -/
  | vcomp (d a : VOpd) (b : SOpd)
  /-- VCOMP_EXT (R167): Extended form of vcomp with width selector. -/
  | vcompExt (x : Ext)
  /-- VEXPD (R167): Expands lanes into selected positions. -/
  | vexpd (d a : VOpd) (b : SOpd)
  /-- VEXPD_EXT (R167): Extended form of vexpd. -/
  | vexpdExt (x : Ext)
  /-- VKSORT (R168): Sorts active keys with their lane numbers. -/
  | vksort (d a : VOpd)
  /-- VKSORT_EXT (R168): Extended form of vksort. -/
  | vksortExt (x : Ext)
  /-- VSEARCH (R168): Counts active keys not above each lane's value. -/
  | vsearch (d a b : VOpd)
  /-- VSEARCH_EXT (R168): Extended form of vsearch. -/
  | vsearchExt (x : Ext)
  /-- VCONF (R168): Writes a mask of earlier lanes holding the same key. -/
  | vconf (d a : VOpd)
  /-- VCONF_EXT (R168): Extended form of vconf. -/
  | vconfExt (x : Ext)
  /-- VLDX (R172): Gathers lanes by an index vector. -/
  | vldx (x : Ext)
  /-- VSTX (R172): Scatters lanes by an index vector. -/
  | vstx (x : Ext)
  /-- VLDS (R172): Loads lanes at a scalar stride. -/
  | vlds (x : Ext)
  /-- VSTS (R172): Stores lanes at a scalar stride. -/
  | vsts (x : Ext)
  /-- VLDU (R173): Loads 128 bytes at any byte address. -/
  | vldu (x : Ext)
  /-- VSTU (R173): Stores 128 bytes at any byte address. -/
  | vstu (x : Ext)
  /-- VSTM (R173): Byte-masked store of 128 aligned bytes. -/
  | vstm (x : Ext)
  /-- VLDT (R174): Loads 128 bytes from a tile offset. -/
  | vldt (x : Ext)
  /-- VSTT (R174): Stores 128 bytes to a tile offset. -/
  | vstt (x : Ext)
  /-- VPADD (R147): Packed FP8 add of four sub-elements per lane. -/
  | vpadd (e : F8Type) (d a b : VOpd)
  /-- VPADD_EXT (R147): Extended form of vpadd. -/
  | vpaddExt (e : F8Type) (x : Ext)
  /-- VPSUB (R147): Packed FP8 subtract. -/
  | vpsub (e : F8Type) (d a b : VOpd)
  /-- VPSUB_EXT (R147): Extended form of vpsub. -/
  | vpsubExt (e : F8Type) (x : Ext)
  /-- VPMUL (R147): Packed FP8 multiply. -/
  | vpmul (e : F8Type) (d a b : VOpd)
  /-- VPMUL_EXT (R147): Extended form of vpmul. -/
  | vpmulExt (e : F8Type) (x : Ext)
  /-- VPFMA (R147): Packed FP8 fused multiply-add. -/
  | vpfma (e : F8Type) (d a b : VOpd)
  /-- VPFMA_EXT (R147): Extended form of vpfma. -/
  | vpfmaExt (e : F8Type) (x : Ext)
  /-- TNEW (R311): Creates a tensor from a descriptor and writes its handle. -/
  | tnew (x : Ext)
  /-- TFREE (R312): Frees a tensor handle. -/
  | tfree (x : Ext)
  /-- TWIDEN (R312): Requests a pending widening of a repertoire. -/
  | twiden (x : Ext)
  /-- TGET (R313): Reads one element code and waits for it. -/
  | tget (x : Ext)
  /-- TSET (R313): Writes one element code. -/
  | tset (x : Ext)
  /-- TFILL (R313): Writes one code from a register to every element. -/
  | tfill (x : Ext)
  /-- TFILL_LITERAL (R313): Writes one code from a literal to every element. -/
  | tfillLiteral (x : Ext) (lit : Word)
  /-- TSCALE (R314): Scales every element by an FP32 factor. -/
  | tscale (x : Ext)
  /-- TADD (R314): Adds two tensors elementwise. -/
  | tadd (x : Ext)
  /-- TROWSUM (R315): Writes compensated row sums. -/
  | trowsum (x : Ext)
  /-- TCOLSUM (R315): Writes compensated column sums. -/
  | tcolsum (x : Ext)
  /-- TROWMAX (R315): Writes row maxima. -/
  | trowmax (x : Ext)
  /-- TTRANS (R315): Writes the transpose of a tensor. -/
  | ttrans (x : Ext)
  /-- TCONV (R314): Converts a tensor to the destination's format. -/
  | tconv (x : Ext)
  /-- TCOPYIN (R316): Copies memory into a tensor through a layout record. -/
  | tcopyin (x : Ext)
  /-- TCOPYOUT (R316): Copies a tensor to memory through a layout record. -/
  | tcopyout (x : Ext)
  /-- TSYNC (R317): Waits until the context's accepted tensor operations are performed. -/
  | tsync (x : Ext)
  /-- TINFO (R318): Reads form, repertoire, shape or in-flight count of a handle. -/
  | tinfo (x : Ext)
  /-- MXR (R335): Takes the matrix claim and sets the forwarding configuration. -/
  | mxr (x : Ext)
  /-- MXZ (R336): Binds and zeroes an accumulator tile. -/
  | mxz (x : Ext)
  /-- MXB (R337): Queues the load of a B chunk into the idle macro. -/
  | mxb (x : Ext)
  /-- MXA (R337): Queues streaming of A rows through the current chunk. -/
  | mxa (x : Ext)
  /-- MXO (R338): Converts accumulator elements into an output tile. -/
  | mxo (x : Ext)
  /-- MXW (R339): Waits for the context's matrix commands. -/
  | mxw (x : Ext)
  /-- XCOPY_FILL (R342): Queues a copy from memory into one or more tiles. -/
  | xcopyFill (x : Ext)
  /-- XCOPY_DRAIN (R342): Queues a copy from a tile to memory. -/
  | xcopyDrain (x : Ext)
  /-- XCOPY_GATHER (R342): Queues a gather of tensor rows into tiles. -/
  | xcopyGather (x : Ext)
  /-- XCOPY_SCATTER (R342): Queues a scatter of tile rows into a tensor. -/
  | xcopyScatter (x : Ext)
  /-- XWAIT (R346): Waits for the context's copy commands. -/
  | xwait (x : Ext)
  /-- BXF_FILL (R347): Fills a tile range with a constant in the banks. -/
  | bxfFill (x : Ext)
  /-- BXF_SCALE (R347): Scales a tile range in the banks. -/
  | bxfScale (x : Ext)
  /-- BXF_ADDC (R347): Adds a constant to a tile range in the banks. -/
  | bxfAddc (x : Ext)
  /-- BXF_CONV (R347): Converts a tile range between equal-width types. -/
  | bxfConv (x : Ext)
  /-- BXF_TRANS (R347): Transposes 32 by 32 blocks of a tile range in place. -/
  | bxfTrans (x : Ext)
  /-- RDTIME (R404): Reads the time base. -/
  | rdtime (d : SOpd)
  /-- ALARM (R405): Replaces the slot's alarm. -/
  | alarm (a b : SOpd)
  /-- SYS (R407): Posts a system call request and waits for the reply. -/
  | sys (d a : SOpd)
  /-- SIG_IRQ (R409): Raises an interrupt identity at a hart by MSI. -/
  | sigIrq (a b : SOpd)
  /-- PFETCH (R390): Loads a translation into the TLBs. -/
  | pfetch (a : SOpd)
  /-- PFETCH_MV (R390): Loads a translation and requests a page move toward this die. -/
  | pfetchMv (a : SOpd)
  /-- EVSNAP (R138): Stores a snapshot of the event counters. -/
  | evsnap (a : SOpd)
  /-- EVSNAP_CLEAR (R138): Stores a snapshot of the event counters and clears them. -/
  | evsnapClear (a : SOpd)
  /-- STREAM_DEADLOCK (R33): The core finds both streams blocked and raises the stream-deadlock trap. -/
  | streamDeadlock (core slot : Nat)
  /-- WATCHDOG_EXPIRY (R43): The watchdog count reaches its limit and the context stops. -/
  | watchdogExpiry (core slot : Nat)
  /-- WAIT_DEADLINE (R132): The time base reaches a waiting context's deadline. -/
  | waitDeadline (core slot : Nat)
  /-- ALARM_FIRES (R405): A pending alarm fires, posting a wake or sending a message. -/
  | alarmFires (core : Nat) (who : CtxRef)
  /-- MESSAGE_ARRIVAL (R197): A message in flight reaches its core's heap and is stamped, or removed if its kernel stopped. -/
  | messageArrival (i : Nat)
  /-- GAIN_UPDATE_ARRIVAL (R198): A gain update merges, creates a default-handler message, or is dropped. -/
  | gainUpdateArrival (i : Nat)
  /-- HEAP_POP (R192): The heap removes the first message of an IDLE slot's tag. -/
  | heapPop (core slot : Nat)
  /-- SPAWN_OFFER_ARRIVAL (R205): A spawn offer takes an IDLE slot or is declined. -/
  | spawnOfferArrival (i : Nat)
  /-- SPAWN_ANSWER (R233): The answer to a spawn offer returns and completes the spawn. -/
  | spawnAnswer (i : Nat)
  /-- KEY_UPDATE_ARRIVAL (R207): The receive-and-accumulate unit applies a key-routed update to its bin. -/
  | keyUpdateArrival (i : Nat)
  /-- OVERFLOW_REGION_MOVE (R196): The hardware moves messages between the heap and the overflow region. -/
  | overflowRegionMove (core stamp : Nat) (out : Bool)
  /-- ROUND_GATHER (R200): The tree gathers a residual round of a kernel. -/
  | roundGather (kid : Nat)
  /-- STOP_ARRIVAL (R201): The stop reaches a core, which starts no more activations and removes messages. -/
  | stopArrival (kid core : Nat)
  /-- FINAL_GATHER (R201): With no activation running and no message in flight the tree takes the final gather. -/
  | finalGather (kid : Nat)
  /-- NOTIFY (R393): A notify-register write delivers a sequence number to a hardware queue slot. -/
  | notify (pkg hq : Nat) (value : Word)
  /-- QUEUE_MAP (R216): The stagehands map a user queue, refreshing ALLOW and honouring SHADOW. -/
  | queueMap (pkg hq desc : Nat)
  /-- QUEUE_UNMAP (R221): The stagehands unmap a user queue from its slot. -/
  | queueUnmap (pkg hq : Nat)
  /-- LAUNCH_ACCEPT (R219): The stagehands accept a launch item, assigning tag, handler table and placement. -/
  | launchAccept (pkg hq : Nat) (plan : LaunchPlan)
  /-- BIND_RECORD_WRITE (R220): A bind record written with V = 1 binds a slot. -/
  | bindRecordWrite (core slot : Nat) (record : Word) (regs : BindRegs)
  /-- UNBIND_REQUEST (R220): A bind record written with V = 0 requests an unbind. -/
  | unbindRequest (core slot : Nat)
  /-- PREEMPTION (R362): The core takes an unbind at a boundary, saves and parks the context. -/
  | preemption (core slot : Nat)
  /-- AGING_LIMIT (R222): A present message's effective level rises after each aging limit. -/
  | agingLimit (core stamp : Nat)
  /-- WAIT_LIMIT (R223): Contexts waiting past their wait limit are unbound for another kernel. -/
  | waitLimit (core slot : Nat)
  /-- PARKED_REBIND (R223): A parked context is rebound once its wake arrives and a slot is free. -/
  | parkedRebind (core slot wp : Nat)
  /-- DEPENDENCY_DEADLOCK (R225): A cycle in the wait-for graph faults every kernel on it. -/
  | dependencyDeadlock (kids : List Nat)
  /-- KERNEL_FAULT (R365): The stagehands answer a stop by faulting the kernel. -/
  | kernelFault (pkg i : Nat)
  /-- CONTEXT_RESUME (R365): A watchdog-stopped context is rebound and resumed. -/
  | contextResume (core slot : Nat)
  /-- FILL_BEGINS (R342): A fill begins when its entry is EMPTY and unnamed, making it FILLING. -/
  | fillBegins (core id target : Nat)
  /-- FILL_COMPLETES (R258): A fill completes and its tile becomes READY. -/
  | fillCompletes (core id target : Nat)
  /-- DRAIN_BEGINS (R342): A drain begins on a READY tile, making it DRAINING. -/
  | drainBegins (core id : Nat)
  /-- DRAIN_COMPLETES (R258): A drain completes and its tile becomes EMPTY. -/
  | drainCompletes (core id : Nat)
  /-- COMMAND_FAULT (R325): A running engine command faults and is recorded for the next wait; `refused`: the page it
  waits for is refused (R381). -/
  | commandFault (core id : Nat) (refused : Bool)
  /-- CHUNK_LOADED (R337): A B chunk finishes loading and becomes current. -/
  | chunkLoaded (core : Nat)
  /-- CHUNK_FORWARD (R331): A chunk or A stream is forwarded to a neighbour's ready command. -/
  | chunkForward (core : Nat)
  /-- ACCUMULATE (R332): An mxa command accumulates products into the accumulator. -/
  | accumulate (core : Nat)
  /-- TENSOR_OPERATION_PERFORMED (R307): An accepted tensor operation is performed at the tensor home. -/
  | tensorOperationPerformed (i : Nat)
  /-- FORM_MANAGER_DECISION (R308): The form manager decides a change of form, pending until its trigger. -/
  | formManagerDecision (handle : Word) (form : Nat)
  /-- COMPLETION_NOTICE (R360): A page resolution completes, setting DONE and posting a wake. -/
  | completionNotice (core pfe : Nat) (refused : Bool)
  /-- MOVE_REQUEST (R385): A move request begins a migration or shutters the page. -/
  | moveRequest (pte dst : Nat)
  /-- MOVE_COMPLETE (R385): The frame is streamed, the entry switched, and the queue forwarded. -/
  | moveComplete (pte : Nat)
  /-- MOVE_ABANDONED (R385): An uncorrectable line in the stream abandons the move. -/
  | moveAbandoned (pte : Nat)
  /-- SHUTTER_EXPIRY (R385): T ticks pass and a shuttered page becomes RESIDENT. -/
  | shutterExpiry (pte : Nat)
  /-- REDIRECT_NOTICE (R387): A redirect notice makes the requester re-walk and reissue. -/
  | redirectNotice (core va : Nat)
  /-- SHOOTDOWN_PAGE (R412): SDCMD KIND 0 shoots down the 2 MiB page at SDVA. -/
  | shootdownPage (pkg asid : Nat)
  /-- SHOOTDOWN_SUBPAGE (R412): SDCMD KIND 1 shoots down the 1 KiB sub-page at SDVA. -/
  | shootdownSubpage (pkg asid : Nat)
  /-- SHOOTDOWN_ASID (R412): SDCMD KIND 2 shoots down every entry of an ASID. -/
  | shootdownAsid (pkg asid : Nat)
  /-- SHOOTDOWN_ALL (R412): SDCMD KIND 3 shoots down every entry. -/
  | shootdownAll (pkg : Nat)
  /-- SHOOTDOWN_COMPLETE (R383): A shootdown completes across the blade. -/
  | shootdownComplete (pkg : Nat)
  /-- STATUS_WRITE (R23): A move to STATUS updates AEN, RM and FZ or traps on a reserved mode. -/
  | statusWrite (a : SOpd)
  /-- EVENT_COUNTER_WRITE (R126): A move to an event counter sets it, with same-cycle events added after. -/
  | eventCounterWrite (n : Fin 16) (a : SOpd) (late : BitVec 32)
  /-- TILE_TABLE_WRITE (R257): A write to TTEn arms, releases or resizes a tile under ownership checks. -/
  | tileTableWrite (n : Fin 64) (a : SOpd)
  /-- PAGE_FAULT_SLOT_WRITE (R358): Writing 1 to a PFE slot's V discards the outstanding fault. -/
  | pageFaultSlotWrite (n : Fin 16) (a : SOpd)
  /-- REGISTER_WRITE (R5): A write to a register without behaviour of its own, under its access codes. -/
  | registerWrite (r : DieReg) (value : Word)
  /-- SYSQ_WRITE (R407): A write to SYSQ sets EN, BASE and LOG2, resetting SYSQTAIL on enabling. -/
  | sysqWrite (pkg : Nat) (value : Word)
  /-- SYSQHEAD_WRITE (R407): Advancing SYSQHEAD frees slots for waiting requests. -/
  | sysqheadWrite (pkg : Nat) (value : Word)
  /-- SYSRTOK_WRITE (R408): A token write delivers SYSRVAL as the reply to the waiting context. -/
  | sysrtokWrite (pkg hart : Nat) (token : Word)
  /-- ERROR_LOG_HEADER_WRITE (R369): A header write stores the count and OVF fields. -/
  | errorLogHeaderWrite (a : ArrayId) (value : Word)
  /-- ERROR_LOG_ENTRY_WRITE (R369): A write to an entry's KIND changes or clears the entry. -/
  | errorLogEntryWrite (a : ArrayId) (j : Nat) (value : Word)
  /-- INJCTL_WRITE (R370): Arms injection of an error into the next matching write. -/
  | injctlWrite (a : ArrayId) (value : Word)
  /-- PWRCTL_WRITE (R420): Sets the power mode and cap. -/
  | pwrctlWrite (pkg : Nat) (value : Word)
  /-- POWER_WINDOW (R420): Each 1 ms window the power controller adjusts withheld K-block slots. -/
  | powerWindow (pkg watts duty : Nat) (met : Bool)
  /-- THERMAL_CAP (R420): Junction temperature above its limit forces capped mode and sets THERM. -/
  | thermalCap (pkg cap : Nat)
  /-- FLIT_RECEIVED (R395): A flit is checked by CRC and acknowledged or replayed. -/
  | flitReceived (port seq : Nat) (data : List Byte) (crc : BitVec 32)
  /-- RETRAIN_COMPLETE (R395): A retrain ends, resetting the link or taking it down after three failures. -/
  | retrainComplete (port : Nat) (good : Bool)
  /-- FRAME_SEND (R396): A sender sends a block as a raw or compressed frame. -/
  | frameSend (port : Nat) (block tokens : List Byte)
  /-- FRAME_RECEIVED (R397): The expander expands a frame and updates history and table. -/
  | frameReceived (port : Nat) (header : BitVec 32) (payload : List Byte)
  /-- ENDPOINT_WRITE (R416): An endpoint's memory write is performed at the page home at sys. -/
  | endpointWrite (pkg addr : Nat) (data : List Byte)
  /-- ENDPOINT_MSI (R415): An endpoint's MSI is written to an AIA interrupt file. -/
  | endpointMsi (pkg hart ident : Nat)
  /-- READ_COMPLETION (R416): A PCIe completion returns data for a read by a TH9 agent. -/
  | readCompletion (core slot : Nat) (data : List Byte)
  /-- ATOMICOP_COMPLETION (R389): A PCIe AtomicOp completion completes or fails the atomic. -/
  | atomicopCompletion (core slot : Nat) (good : Bool) (old : Word)
  /-- RESET (R417): At reset the boot ROM verifies and loads the firmware images in order. -/
  | reset (pkg : Nat) (images : List BootImage)
  /-- RECOVERY_IMAGE (R417): A recovery image arrives through the management interface. -/
  | recoveryImage (pkg : Nat) (image : BootImage)
  /-- COMPUTE_DIE_RELEASE (R417): The control-die firmware releases the compute dies from reset. -/
  | computeDieRelease (pkg : Nat)
  /-- ATTESTATION_REQUEST (R419): The security block returns a signed attestation report. -/
  | attestationRequest (pkg : Nat) (nonce : BitVec 384)
  /-- UNDEFINED_ENCODING (R62): A fetched word or word sequence that is not an instruction, such as 0x0000_0000 or any word with major 0x3F, raises cause 0x0100 as an upcall. -/
  | undefinedEncoding
  /-- ACCUMULATOR_ZEROED (R336): A queued mxz command runs and writes +0 to every element of the bound accumulator tile. -/
  | accumulatorZeroed (core : Nat)
  /-- ACCUMULATOR_CONVERTED (R338): A queued mxo command runs, converts each accumulator element into the output tile, optionally clears it and performs its release half. -/
  | accumulatorConverted (core : Nat)
  /-- LINK_TRAINED (R398): A Delstod link finishes its initial training, starts from a reset of history and table, and joins its packages to the sys scope. -/
  | linkTrained (port : Nat)
  /-- ENDPOINT_MEMORY_READ (R415): A PCIe endpoint reads TH9 memory through the IOMMU. -/
  | endpointMemoryRead (pkg addr len : Nat)
  /-- TEMPERATURE_FALLS (R420): The junction temperature falls below its limit, clearing THERM and lifting the thermal cap. -/
  | temperatureFalls (pkg : Nat)
  deriving DecidableEq, Repr

end Sys2Proof
end

