-- ==== Sys2Proof/Decode.lean ====
section
/-! DEFINITION. The decoder (R45-R62), total on any words, and the encoder written from the same tables. The
decoder rejects an undefined encoding (0x0100) and the reserved fields that a word shows by itself (0x0101); the
checks of R57 that need the cue latch or STATUS are the instruction's own, before any effect. (The compiler builds constructors with fields only below a fixed index, so the arms beyond it and
what calls them are noncomputable; the kernel evaluates them like any other.) -/

namespace Sys2Proof

/-! ### Operand codes (R18, R19, R52, R53) -/

/-- The code of a direction (R56). -/
def Dir.code : Dir → BitVec 2
  | .n => 0
  | .e => 1
  | .s => 2
  | .w => 3

/-- The direction of a code (R56). -/
def Dir.ofCode (c : BitVec 2) : Dir :=
  match c.toNat with
  | 0 => .n
  | 1 => .e
  | 2 => .s
  | _ => .w

/-- The 5-bit field of a scalar operand (R18). -/
def SOpd.bits : SOpd → BitVec 5
  | .w n => BitVec.ofNat 5 n.val
  | .q n => BitVec.ofNat 5 (24 + n.val)
  | .link d => BitVec.ofNat 5 (28 + d.code.toNat)

/-- The scalar operand of a 5-bit field (R18). -/
def SOpd.ofBits (f : BitVec 5) : SOpd :=
  if h : f.toNat < 24 then .w ⟨f.toNat, h⟩
  else if f.toNat < 28 then .q (Fin.ofNat 4 (f.toNat - 24))
  else .link (Dir.ofCode (BitVec.ofNat 2 (f.toNat - 28)))

/-- The 5-bit field of a vector operand (R19). -/
def VOpd.bits : VOpd → BitVec 5
  | .v n => BitVec.ofNat 5 n.val
  | .q n => BitVec.ofNat 5 (16 + n.val)
  | .link d => BitVec.ofNat 5 (20 + d.code.toNat)
  | .rsv n => BitVec.ofNat 5 (24 + n.val)

/-- The vector operand of a 5-bit field (R19). -/
def VOpd.ofBits (f : BitVec 5) : VOpd :=
  if h : f.toNat < 16 then .v ⟨f.toNat, h⟩
  else if f.toNat < 20 then .q (Fin.ofNat 4 (f.toNat - 16))
  else if f.toNat < 24 then .link (Dir.ofCode (BitVec.ofNat 2 (f.toNat - 20)))
  else .rsv (Fin.ofNat 8 (f.toNat - 24))

/-- The 7-bit specifier (R52): class in [6:5], index in [4:0]. -/
def Spec.bits : Spec → BitVec 7
  | .s o => 0#2 ++ o.bits
  | .v o => 1#2 ++ o.bits
  | .t n => 1#1 ++ BitVec.ofNat 6 n.val

/-- The operand of a 7-bit specifier (R52). -/
def Spec.ofBits (f : BitVec 7) : Spec :=
  match (f.extractLsb' 5 2).toNat with
  | 0 => .s (SOpd.ofBits (f.extractLsb' 0 5))
  | 1 => .v (VOpd.ofBits (f.extractLsb' 0 5))
  | _ => .t (Fin.ofNat 64 (f.extractLsb' 0 6).toNat)

/-- The element type code (R53). -/
def Fmt.code : Fmt → BitVec 4
  | .none => 0x0 | .e2m1 => 0x1 | .e2m1x => 0x2 | .e2m3 => 0x3 | .e3m2 => 0x4 | .e4m3 => 0x5 | .e5m2 => 0x6 | .bf16 => 0x7
  | .fp16 => 0x8 | .fp32 => 0x9 | .int8 => 0xA | .uint8 => 0xB | .int4 => 0xC | .uint4 => 0xD | .int2 => 0xE | .bin1 => 0xF

/-- The element type of a code (R53). -/
def Fmt.ofCode (c : BitVec 4) : Fmt :=
  match c.toNat with
  | 0x0 => .none | 0x1 => .e2m1 | 0x2 => .e2m1x | 0x3 => .e2m3 | 0x4 => .e3m2 | 0x5 => .e4m3 | 0x6 => .e5m2 | 0x7 => .bf16
  | 0x8 => .fp16 | 0x9 => .fp32 | 0xA => .int8 | 0xB => .uint8 | 0xC => .int4 | 0xD => .uint4 | 0xE => .int2 | _ => .bin1

/-- The scope code (R51). -/
def Scope.code : Scope → BitVec 3
  | .core => 0 | .clu => 1 | .die => 2 | .pkg => 3 | .sys => 4

/-- The scope of a code; 0b101–0b111 name none (R55). -/
def Scope.ofCode (c : BitVec 3) : Option Scope :=
  match c.toNat with
  | 0 => some .core | 1 => some .clu | 2 => some .die | 3 => some .pkg | 4 => some .sys | _ => none

/-- The rounding-override code (R51). -/
def roCode : Option Rm → BitVec 3
  | none => 0 | some .rne => 1 | some .rtz => 2 | some .rup => 3 | some .rdn => 4 | some .rna => 5

/-- The rounding override of a code; 0b110 and 0b111 are refused (R55). -/
def roOfCode (c : BitVec 3) : Option (Option Rm) :=
  match c.toNat with
  | 0 => some none | 1 => some (some .rne) | 2 => some (some .rtz) | 3 => some (some .rup) | 4 => some (some .rdn)
  | 5 => some (some .rna) | _ => none

/-- The type code t of a suffix (R59). -/
def FType.code : FType → BitVec 9
  | .f32 => 0 | .bf16 => 1 | .f16 => 2

/-- The width code t of a suffix (R59). -/
def WType.code : WType → BitVec 9
  | .b => 0 | .h => 1 | .w => 2 | .d => 3

/-- The code e of a packed FP8 suffix (R59). -/
def F8Type.code : F8Type → BitVec 9
  | .e4m3 => 0 | .e5m2 => 1

/-! ### What an extended form uses (R55, and each instruction's operand table) -/

/-- Bit i of the immediate. -/
def Ext.immBit (x : Ext) (i : Nat) : Bool := x.imm.getLsbD i

/-- The n bits of the immediate from bit lo, as a number. -/
def Ext.immField (x : Ext) (lo n : Nat) : Nat := (x.imm.extractLsb' lo n).toNat

/-- Whether a specifier has vector class. -/
def Spec.isVector : Spec → Bool
  | .v _ => true
  | _ => false

/-- ET is neither 0x0 nor a lane type (R160). -/
def Ext.badLaneType (x : Ext) : Bool :=
  match x.et with
  | .none | .fp32 | .bf16 | .fp16 => false
  | _ => true

/-- Which fields of the extended form an instruction uses; `imm` is the mask of its immediate bits, and `bad`
holds when a used field has a value that its description refuses with 0x0101. -/
structure Use where
  od : Bool := false
  oa : Bool := false
  ob : Bool := false
  oc : Bool := false
  me : Bool := false
  z : Bool := false
  et : Bool := false
  ro : Bool := false
  scp : Bool := false
  acq : Bool := false
  rel : Bool := false
  imm : BitVec 32 := 0
  bad : Bool := false

/-- The specifier of an operand that is not used: all bits zero. -/
def Spec.zero : Spec := .s (.w 0)

/-- R55: every unused field is zero, Z is 0 where ME is 0, and MASK is 0 where ME is 0. -/
def Ext.fits (x : Ext) (u : Use) : Bool :=
  (u.od || x.od == Spec.zero) && (u.oa || x.oa == Spec.zero) && (u.ob || x.ob == Spec.zero) && (u.oc || x.oc == Spec.zero)
    && (u.me || !x.me) && (u.z || !x.z) && (!x.z || x.me) && (x.me || x.mask == 0) && (u.et || x.et == .none)
    && (u.ro || x.ro == none) && (u.scp || x.scp == .core) && (u.acq || !x.acq) && (u.rel || !x.rel)
    && x.imm &&& ~~~u.imm == 0 && !u.bad

/-- The extended fields of an instruction with the fields it uses; none for a base form or an event. `bar.arr`, `bar.add` and
`bar.wait` take any SCP with REL or ACQ zero: R229 asks for SCP zero of the sending instructions, and R238 and R239 do not
(DEDUCED, log 26). -/
def Instr.extUse : Instr → Option (Ext × Use)
  | .ldxW x => some (x, { od := true, oa := true, scp := true, acq := true, rel := true, imm := 0xFFFFFFFF })
  | .ldxD x => some (x, { od := true, oa := true, scp := true, acq := true, rel := true, imm := 0xFFFFFFFF })
  | .stxW x => some (x, { od := true, oa := true, scp := true, acq := true, rel := true, imm := 0xFFFFFFFF })
  | .stxD x => some (x, { od := true, oa := true, scp := true, acq := true, rel := true, imm := 0xFFFFFFFF })
  | .amaddW x => some (x, { od := true, oa := true, ob := true, scp := true, acq := true, rel := true })
  | .amaddD x => some (x, { od := true, oa := true, ob := true, scp := true, acq := true, rel := true })
  | .amminW x => some (x, { od := true, oa := true, ob := true, scp := true, acq := true, rel := true })
  | .amminD x => some (x, { od := true, oa := true, ob := true, scp := true, acq := true, rel := true })
  | .ammaxW x => some (x, { od := true, oa := true, ob := true, scp := true, acq := true, rel := true })
  | .ammaxD x => some (x, { od := true, oa := true, ob := true, scp := true, acq := true, rel := true })
  | .amcasW x => some (x, { od := true, oa := true, ob := true, oc := true, scp := true, acq := true, rel := true })
  | .amcasD x => some (x, { od := true, oa := true, ob := true, oc := true, scp := true, acq := true, rel := true })
  | .amandD x => some (x, { od := true, oa := true, ob := true, scp := true, acq := true, rel := true })
  | .amorD x => some (x, { od := true, oa := true, ob := true, scp := true, acq := true, rel := true })
  | .amxorD x => some (x, { od := true, oa := true, ob := true, scp := true, acq := true, rel := true })
  | .amswapD x => some (x, { od := true, oa := true, ob := true, scp := true, acq := true, rel := true })
  | .amldD x => some (x, { od := true, oa := true, scp := true, acq := true, rel := true })
  | .amstD x => some (x, { oa := true, ob := true, scp := true, acq := true, rel := true })
  | .amfaddW x => some (x, { od := true, oa := true, ob := true, scp := true, acq := true, rel := true })
  | .curtn x => some (x, { scp := true })
  | .curtnRel x => some (x, { scp := true })
  | .curtnAcq x => some (x, { scp := true })
  | .succgo x => some (x, { })
  | .predwait x => some (x, { od := true, scp := true })
  | .barArr x => some (x, { od := true, oa := true, ob := true, oc := x.immBit 0, scp := true, rel := true, imm := if x.immBit 0 then 3 else 1 })
  | .barWait x => some (x, { od := true, oa := true, ob := true, scp := true, acq := true })
  | .barAdd x => some (x, { oa := true, ob := true, scp := true, rel := true })
  | .ownGive x => some (x, { od := true, oa := true, ob := true, scp := x.rel, rel := true })
  | .send x => some (x, { oa := true, ob := true, oc := x.immField 0 3 != 0, scp := x.rel, rel := true, imm := 7 })
  | .sendh x => some (x, { oa := true, ob := true, oc := x.immField 0 3 != 0, scp := x.rel, rel := true, imm := 7 })
  | .sendk x => some (x, { oa := true, ob := true, oc := x.immBit 4, scp := x.rel, rel := true, imm := 0x17 })
  | .spawn x => some (x, { od := true, oa := true, ob := true, oc := true, scp := x.rel, rel := true })
  | .gainadd x => some (x, { oa := true, ob := true, oc := true, scp := x.rel, rel := true, imm := 1 })
  | .resadd x => some (x, { oa := true, me := x.oa.isVector })
  | .gang x => some (x, { imm := 3, bad := x.immField 0 2 == 3 })
  | .ungang x => some (x, { })
  | .myid x => some (x, { od := true, imm := 7, bad := x.immField 0 3 == 7 })
  | .trcAdd x => some (x, { oa := true, ob := true, imm := 3 })
  | .trcGet x => some (x, { od := true, oa := x.immField 0 2 == 0, imm := 3, bad := x.immField 0 2 == 3 })
  | .kmap x => some (x, { oa := true, imm := 7 })
  | .defh x => some (x, { imm := 0x7F, bad := x.immBit 6 && x.immField 0 6 != 0 })
  | .vaddExt _ x => some (x, { od := true, oa := true, ob := true, me := true, z := true, ro := true })
  | .vsubExt _ x => some (x, { od := true, oa := true, ob := true, me := true, z := true, ro := true })
  | .vmulExt _ x => some (x, { od := true, oa := true, ob := true, me := true, z := true, ro := true })
  | .vfmaExt _ x => some (x, { od := true, oa := true, ob := true, me := true, z := true, oc := true, ro := true })
  | .vfmsExt _ x => some (x, { od := true, oa := true, ob := true, me := true, z := true, oc := true, ro := true })
  | .vminExt _ x => some (x, { od := true, oa := true, ob := true, me := true, z := true })
  | .vmaxExt _ x => some (x, { od := true, oa := true, ob := true, me := true, z := true })
  | .vabsExt _ x => some (x, { od := true, oa := true, me := true, z := true })
  | .vnegExt _ x => some (x, { od := true, oa := true, me := true, z := true })
  | .vaddXExt x => some (x, { od := true, oa := true, ob := true, me := true, z := true })
  | .vsubXExt x => some (x, { od := true, oa := true, ob := true, me := true, z := true })
  | .vmulXExt x => some (x, { od := true, oa := true, ob := true, me := true, z := true })
  | .vdwaddExt x => some (x, { od := true, oa := true, ob := true, me := true, z := true })
  | .vdwmulExt x => some (x, { od := true, oa := true, ob := true, me := true, z := true })
  | .vdwfmaExt x => some (x, { od := true, oa := true, ob := true, me := true, z := true, oc := true })
  | .vdwroundExt x => some (x, { od := true, oa := true, me := true, z := true, ro := true })
  | .vcsumExt x => some (x, { od := true, oa := true, me := true })
  | .vcdotExt x => some (x, { od := true, oa := true, ob := true, me := true })
  | .vsumExt _ x => some (x, { od := true, oa := true, me := true, ro := true })
  | .vrmaxExt _ x => some (x, { od := true, oa := true, me := true })
  | .vrminExt _ x => some (x, { od := true, oa := true, me := true })
  | .vscanExt _ x => some (x, { od := true, oa := true, me := true, z := true, ro := true })
  | .vgmaxExt _ x => some (x, { od := true, oa := true, ob := true, me := true, z := true })
  | .viaddExt _ x => some (x, { od := true, oa := true, ob := true, me := true, z := true })
  | .visubExt _ x => some (x, { od := true, oa := true, ob := true, me := true, z := true })
  | .vimulExt _ x => some (x, { od := true, oa := true, ob := true, me := true, z := true })
  | .viminExt _ x => some (x, { od := true, oa := true, ob := true, me := true, z := true })
  | .vimaxExt _ x => some (x, { od := true, oa := true, ob := true, me := true, z := true })
  | .viandExt _ x => some (x, { od := true, oa := true, ob := true, me := true, z := true })
  | .viorExt _ x => some (x, { od := true, oa := true, ob := true, me := true, z := true })
  | .vixorExt _ x => some (x, { od := true, oa := true, ob := true, me := true, z := true })
  | .visllExt _ x => some (x, { od := true, oa := true, ob := true, me := true, z := true })
  | .visrlExt _ x => some (x, { od := true, oa := true, ob := true, me := true, z := true })
  | .vifslExt _ x => some (x, { od := true, oa := true, ob := true, me := true, z := true, oc := true })
  | .vifsrExt _ x => some (x, { od := true, oa := true, ob := true, me := true, z := true, oc := true })
  | .veqExt _ x => some (x, { od := true, oa := true, ob := true, me := true, z := true })
  | .vltExt _ x => some (x, { od := true, oa := true, ob := true, me := true, z := true })
  | .vleExt _ x => some (x, { od := true, oa := true, ob := true, me := true, z := true })
  | .vneExt _ x => some (x, { od := true, oa := true, ob := true, me := true, z := true })
  | .vunoExt _ x => some (x, { od := true, oa := true, ob := true, me := true, z := true })
  | .vieqExt _ x => some (x, { od := true, oa := true, ob := true, me := true, z := true })
  | .viltExt _ x => some (x, { od := true, oa := true, ob := true, me := true, z := true })
  | .vsel x => some (x, { od := true, oa := true, ob := true, me := true, imm := 3, bad := !x.me })
  | .vcvtExt x => some (x, { od := true, oa := true, ob := true, oc := true, me := true, z := true, ro := true, imm := 0x1F })
  | .vcvtiExt x => some (x, { od := true, oa := true, me := true, z := true, ro := true, et := true, bad := x.badLaneType })
  | .vcvtfExt x => some (x, { od := true, oa := true, me := true, z := true, ro := true, et := true, bad := x.badLaneType })
  | .vpackExt x => some (x, { od := true, oa := true, ob := true, me := true, z := true, ro := true, et := true, bad := x.badLaneType || x.et == .fp32 })
  | .vrcpExt x => some (x, { od := true, oa := true, me := true, z := true, et := true, bad := x.badLaneType })
  | .vrsqExt x => some (x, { od := true, oa := true, me := true, z := true, et := true, bad := x.badLaneType })
  | .vexp2Ext x => some (x, { od := true, oa := true, me := true, z := true, et := true, bad := x.badLaneType })
  | .vmovExt x => some (x, { od := true, oa := true, me := true, z := true })
  | .vbcstExt _ x => some (x, { od := true, oa := true, me := true, z := true })
  | .vpermExt _ x => some (x, { od := true, oa := true, ob := true, me := true, z := true })
  | .vinsExt _ x => some (x, { od := true, oa := true, ob := true })
  | .vextExt _ x => some (x, { od := true, oa := true, ob := true })
  | .vcompExt x => some (x, { od := true, oa := true, ob := true, imm := 3 })
  | .vexpdExt x => some (x, { od := true, oa := true, ob := true, imm := 3 })
  | .vksortExt x => some (x, { od := true, oa := true, me := true })
  | .vsearchExt x => some (x, { od := true, oa := true, ob := true, me := true, z := true })
  | .vconfExt x => some (x, { od := true, oa := true, me := true, z := true })
  | .vldx x => some (x, { od := true, oa := true, ob := true, me := true, z := true, imm := 3, bad := x.immField 0 2 == 1 || x.immField 0 2 == 2 })
  | .vstx x => some (x, { od := true, oa := true, ob := true, me := true, z := true, imm := 3, bad := x.immField 0 2 == 1 || x.immField 0 2 == 2 })
  | .vlds x => some (x, { od := true, oa := true, ob := true, me := true, z := true, imm := 3 })
  | .vsts x => some (x, { od := true, oa := true, ob := true, me := true, z := true, imm := 3 })
  | .vldu x => some (x, { od := true, oa := true, imm := 0xFFFFFFFF })
  | .vstu x => some (x, { od := true, oa := true, imm := 0xFFFFFFFF })
  | .vstm x => some (x, { od := true, oa := true, me := true, z := true, imm := 0xFFFFFFFF, bad := !x.me })
  | .vldt x => some (x, { od := true, oa := true, ob := true, me := true, z := true, et := true })
  | .vstt x => some (x, { od := true, oa := true, ob := true, me := true, z := true, et := true })
  | .vpaddExt _ x => some (x, { od := true, oa := true, ob := true, me := true, z := true, ro := true })
  | .vpsubExt _ x => some (x, { od := true, oa := true, ob := true, me := true, z := true, ro := true })
  | .vpmulExt _ x => some (x, { od := true, oa := true, ob := true, me := true, z := true, ro := true })
  | .vpfmaExt _ x => some (x, { od := true, oa := true, ob := true, me := true, z := true, oc := true, ro := true })
  | .tnew x => some (x, { od := true, oa := true, scp := true })
  | .tfree x => some (x, { oa := true })
  | .twiden x => some (x, { oa := true, ob := true })
  | .tget x => some (x, { od := true, oa := true, ob := true, oc := true })
  | .tset x => some (x, { od := true, oa := true, ob := true, oc := true })
  | .tfill x => some (x, { oa := true, ob := true })
  | .tscale x => some (x, { oa := true, ob := true, ro := true, imm := 1 })
  | .tadd x => some (x, { od := true, oa := true, ob := true, ro := true, imm := 1 })
  | .trowsum x => some (x, { od := true, oa := true, ro := true, imm := 1 })
  | .tcolsum x => some (x, { od := true, oa := true, ro := true, imm := 1 })
  | .trowmax x => some (x, { od := true, oa := true, ro := true, imm := 1 })
  | .ttrans x => some (x, { od := true, oa := true })
  | .tconv x => some (x, { od := true, oa := true, ro := true })
  | .tcopyin x => some (x, { oa := true, ob := true, scp := x.acq || x.rel, acq := true, rel := true })
  | .tcopyout x => some (x, { oa := true, ob := true, scp := x.acq || x.rel, acq := true, rel := true })
  | .tsync x => some (x, { oa := true })
  | .tinfo x => some (x, { od := true, oa := true, imm := 3 })
  | .mxr x => some (x, { od := true, oa := true })
  | .mxz x => some (x, { od := true, ob := true })
  | .mxb x => some (x, { od := true, oa := true, ob := true, oc := true, scp := true, acq := true, imm := 0xFF7F })
  | .mxa x => some (x, { od := true, oa := true, ob := true, oc := true, scp := true, acq := true, imm := 0xFF00 })
  | .mxo x => some (x, { od := true, et := true, ro := true, scp := true, rel := true, imm := 1, bad := x.et == .none || x.badLaneType })
  | .mxw x => some (x, { od := true })
  | .xcopyFill x => some (x, { od := true, oa := true, ob := false, oc := x.immBit 2, scp := true, acq := true, rel := true, imm := 0xFFFF0007, bad := x.immField 0 2 != 0 })
  | .xcopyDrain x => some (x, { od := true, oa := true, ob := false, oc := x.immBit 2, scp := true, acq := true, rel := true, imm := 7, bad := x.immField 0 2 != 1 })
  | .xcopyGather x => some (x, { od := true, oa := true, ob := true, oc := x.immBit 2, scp := true, acq := true, rel := true, imm := 0xFFFF7FFF, bad := x.immField 0 2 != 2 || x.immField 3 12 == 0 })
  | .xcopyScatter x => some (x, { od := true, oa := true, ob := true, oc := x.immBit 2, scp := true, acq := true, rel := true, imm := 0x7FFF, bad := x.immField 0 2 != 3 || x.immField 3 12 == 0 })
  | .xwait x => some (x, { oa := true })
  | .bxfFill x => some (x, { od := true, oa := true, ob := true, et := true, ro := false, imm := 0xF, bad := x.immField 0 3 != 0 })
  | .bxfScale x => some (x, { od := true, oa := true, ob := true, et := true, ro := true, imm := 0xF, bad := x.immField 0 3 != 1 })
  | .bxfAddc x => some (x, { od := true, oa := true, ob := true, et := true, ro := true, imm := 0xF, bad := x.immField 0 3 != 2 })
  | .bxfConv x => some (x, { od := true, oa := false, ob := true, et := true, ro := true, imm := 0xF0F, bad := x.immField 0 3 != 3 })
  | .bxfTrans x => some (x, { od := true, oa := false, ob := true, et := true, ro := false, imm := 0xF, bad := x.immField 0 3 != 4 })
  | .vbcstLiteral _ x _ => some (x, { od := true, me := true, z := true })
  | .tfillLiteral x _ => some (x, { oa := true })
  | .add _ _ _ => none
  | .sub _ _ _ => none
  | .mul _ _ _ => none
  | .mulh _ _ _ => none
  | .div _ _ _ => none
  | .divu _ _ _ => none
  | .rem _ _ _ => none
  | .remu _ _ _ => none
  | .and _ _ _ => none
  | .or _ _ _ => none
  | .xor _ _ _ => none
  | .andn _ _ _ => none
  | .sll _ _ _ => none
  | .srl _ _ _ => none
  | .sra _ _ _ => none
  | .ror _ _ _ => none
  | .min _ _ _ => none
  | .max _ _ _ => none
  | .slt _ _ _ => none
  | .sltu _ _ _ => none
  | .seq _ _ _ => none
  | .sne _ _ _ => none
  | .cmovz _ _ _ => none
  | .cmovn _ _ _ => none
  | .addsat _ _ _ => none
  | .popc _ _ => none
  | .clz _ _ => none
  | .ctz _ _ => none
  | .brev _ _ => none
  | .bswap _ _ => none
  | .mkm _ _ _ => none
  | .fsli _ _ _ _ => none
  | .fsri _ _ _ _ => none
  | .addi _ _ _ => none
  | .addiLiteral _ _ _ => none
  | .andi _ _ _ => none
  | .ori _ _ _ => none
  | .xori _ _ _ => none
  | .slti _ _ _ => none
  | .slli _ _ _ => none
  | .srli _ _ _ => none
  | .srai _ _ _ => none
  | .bfx _ _ _ _ _ => none
  | .bfi _ _ _ _ => none
  | .lpc _ _ => none
  | .jalr _ _ _ => none
  | .mfcr _ _ => none
  | .mtcr _ _ => none
  | .vloop _ _ => none
  | .vloopRegister _ _ => none
  | .beq _ _ _ => none
  | .bne _ _ _ => none
  | .blt _ _ _ => none
  | .bge _ _ _ => none
  | .bltu _ _ _ => none
  | .bgeu _ _ _ => none
  | .bany _ _ _ => none
  | .ball _ _ _ => none
  | .bnone _ _ _ => none
  | .j _ => none
  | .jal _ => none
  | .cue _ => none
  | .ldB _ _ _ => none
  | .ldBz _ _ _ => none
  | .ldH _ _ _ => none
  | .ldHz _ _ _ => none
  | .ldW _ _ _ => none
  | .ldWz _ _ _ => none
  | .ldD _ _ _ => none
  | .ldInv _ _ _ => none
  | .stB _ _ _ => none
  | .stH _ _ _ => none
  | .stW _ _ _ => none
  | .stD _ _ _ => none
  | .vld _ _ _ => none
  | .vst _ _ _ => none
  | .yield => none
  | .wait _ _ => none
  | .endAct => none
  | .trap _ => none
  | .upret => none
  | .wpx _ => none
  | .ifence => none
  | .lclaim _ => none
  | .lfree => none
  | .lpoll _ => none
  | .vadd _ _ _ _ => none
  | .vsub _ _ _ _ => none
  | .vmul _ _ _ _ => none
  | .vfma _ _ _ _ => none
  | .vfms _ _ _ _ => none
  | .vmin _ _ _ _ => none
  | .vmax _ _ _ _ => none
  | .vabs _ _ _ => none
  | .vneg _ _ _ => none
  | .vaddX _ _ _ => none
  | .vsubX _ _ _ => none
  | .vmulX _ _ _ => none
  | .vdwadd _ _ _ => none
  | .vdwmul _ _ _ => none
  | .vdwfma _ _ _ => none
  | .vdwround _ _ => none
  | .vcsum _ _ => none
  | .vcdot _ _ _ => none
  | .vsum _ _ _ => none
  | .vrmax _ _ _ => none
  | .vrmin _ _ _ => none
  | .vscan _ _ _ => none
  | .vgmax _ _ _ _ => none
  | .viadd _ _ _ _ => none
  | .visub _ _ _ _ => none
  | .vimul _ _ _ _ => none
  | .vimin _ _ _ _ => none
  | .vimax _ _ _ _ => none
  | .viand _ _ _ _ => none
  | .vior _ _ _ _ => none
  | .vixor _ _ _ _ => none
  | .visll _ _ _ _ => none
  | .visrl _ _ _ _ => none
  | .vifsl _ _ _ _ => none
  | .vifsr _ _ _ _ => none
  | .veq _ _ _ _ => none
  | .vlt _ _ _ _ => none
  | .vle _ _ _ _ => none
  | .vne _ _ _ _ => none
  | .vuno _ _ _ _ => none
  | .vieq _ _ _ _ => none
  | .vilt _ _ _ _ => none
  | .vcvt _ _ _ => none
  | .vcvti _ _ => none
  | .vcvtf _ _ => none
  | .vpack _ _ _ => none
  | .vrcp _ _ => none
  | .vrsq _ _ => none
  | .vexp2 _ _ => none
  | .vmov _ _ => none
  | .vbcst _ _ _ => none
  | .vperm _ _ _ _ => none
  | .vins _ _ _ _ => none
  | .vext _ _ _ _ => none
  | .vcomp _ _ _ => none
  | .vexpd _ _ _ => none
  | .vksort _ _ => none
  | .vsearch _ _ _ => none
  | .vconf _ _ => none
  | .vpadd _ _ _ _ => none
  | .vpsub _ _ _ _ => none
  | .vpmul _ _ _ _ => none
  | .vpfma _ _ _ _ => none
  | .rdtime _ => none
  | .alarm _ _ => none
  | .sys _ _ => none
  | .sigIrq _ _ => none
  | .pfetch _ => none
  | .pfetchMv _ => none
  | .evsnap _ => none
  | .evsnapClear _ => none
  | .streamDeadlock _ _ => none
  | .watchdogExpiry _ _ => none
  | .waitDeadline _ _ => none
  | .alarmFires _ _ => none
  | .messageArrival _ => none
  | .gainUpdateArrival _ => none
  | .heapPop _ _ => none
  | .spawnOfferArrival _ => none
  | .spawnAnswer _ => none
  | .keyUpdateArrival _ => none
  | .overflowRegionMove _ _ _ => none
  | .roundGather _ => none
  | .stopArrival _ _ => none
  | .finalGather _ => none
  | .notify _ _ _ => none
  | .queueMap _ _ _ => none
  | .queueUnmap _ _ => none
  | .launchAccept _ _ _ => none
  | .bindRecordWrite _ _ _ _ => none
  | .unbindRequest _ _ => none
  | .preemption _ _ => none
  | .agingLimit _ _ => none
  | .waitLimit _ _ => none
  | .parkedRebind _ _ _ => none
  | .dependencyDeadlock _ => none
  | .kernelFault _ _ => none
  | .contextResume _ _ => none
  | .fillBegins _ _ _ => none
  | .fillCompletes _ _ _ => none
  | .drainBegins _ _ => none
  | .drainCompletes _ _ => none
  | .commandFault _ _ _ => none
  | .chunkLoaded _ => none
  | .chunkForward _ => none
  | .accumulate _ => none
  | .tensorOperationPerformed _ => none
  | .formManagerDecision _ _ => none
  | .completionNotice _ _ _ => none
  | .moveRequest _ _ => none
  | .moveComplete _ => none
  | .moveAbandoned _ => none
  | .shutterExpiry _ => none
  | .redirectNotice _ _ => none
  | .shootdownPage _ _ => none
  | .shootdownSubpage _ _ => none
  | .shootdownAsid _ _ => none
  | .shootdownAll _ => none
  | .shootdownComplete _ => none
  | .statusWrite _ => none
  | .eventCounterWrite _ _ _ => none
  | .tileTableWrite _ _ => none
  | .pageFaultSlotWrite _ _ => none
  | .registerWrite _ _ => none
  | .sysqWrite _ _ => none
  | .sysqheadWrite _ _ => none
  | .sysrtokWrite _ _ _ => none
  | .errorLogHeaderWrite _ _ => none
  | .errorLogEntryWrite _ _ _ => none
  | .injctlWrite _ _ => none
  | .pwrctlWrite _ _ => none
  | .powerWindow _ _ _ _ => none
  | .thermalCap _ _ => none
  | .flitReceived _ _ _ _ => none
  | .retrainComplete _ _ => none
  | .frameSend _ _ _ => none
  | .frameReceived _ _ _ => none
  | .endpointWrite _ _ _ => none
  | .endpointMsi _ _ _ => none
  | .readCompletion _ _ _ => none
  | .atomicopCompletion _ _ _ _ => none
  | .reset _ _ => none
  | .recoveryImage _ _ => none
  | .computeDieRelease _ => none
  | .attestationRequest _ _ => none
  | .undefinedEncoding => none
  | .accumulatorZeroed _ => none
  | .accumulatorConverted _ => none
  | .linkTrained _ => none
  | .endpointMemoryRead _ _ _ => none
  | .temperatureFalls _ => none

/-! ### Field values that make a base word an undefined encoding (R50) -/

/-- The cue payloads of R128 that are valid. -/
def cueValid (p : BitVec 24) : Bool :=
  let af := Fmt.ofCode (p.extractLsb' 0 4)
  let bf := Fmt.ofCode (p.extractLsb' 4 4)
  let bsz := p.extractLsb' 8 2
  let sf := p.extractLsb' 10 2
  let x := af == .e2m1x || bf == .e2m1x
  p.extractLsb' 19 5 == 0 && (roOfCode (p.extractLsb' 16 3)).isSome && p.extractLsb' 13 2 != 3 && sf != 3
    && !(bsz == 0 && sf != 0) && p.getLsbD 12 == x && !(x && bsz == 0)

/-- A scalar operand that names w0–w23. -/
def SOpd.isReg : SOpd → Bool
  | .w _ => true
  | _ => false

/-- Lanes of a floating-point lane type (R142). -/
def FType.lanes : FType → Nat
  | .f32 => 32
  | _ => 64

/-- The group size of a `vgmax` code (R155). -/
def vgmaxGroup (code : Nat) : Nat := 8 * 2 ^ code

/-- The `vgmax` codes that are encodings (R155): a code of at most 3 whose group fits the lanes. -/
def vgmaxOk (t : FType) (code : Nat) : Bool := code ≤ 3 && vgmaxGroup code ≤ t.lanes

/-- The encodings that hold an instruction by R50 and by each description's own limits (R105, R112, R128, R155,
R176, R390); what R55 adds for an extended form is `Ext.fits`. -/
def Instr.defined (i : Instr) : Bool :=
  match i with
  | .cmovz d _ _ => d.isReg
  | .cmovn d _ _ => d.isReg
  | .bfx _ _ p wm1 _ => p.toNat + wm1.toNat + 1 ≤ 64
  | .bfi d _ p wm1 => d.isReg && p.toNat + wm1.toNat + 1 ≤ 64
  | .cue p => cueValid p
  | .vloop k _ => 1 ≤ k.toNat && k.toNat ≤ 16
  | .vloopRegister k a => 1 ≤ k.toNat && k.toNat ≤ 16 && a.isReg && a != .w 0
  | .pfetch a => a.isReg
  | .pfetchMv a => a.isReg
  | .vgmax t _ _ g => vgmaxOk t g.toNat
  | .vgmaxExt t x =>
    match x.ob with
    | .s o => vgmaxOk t o.bits.toNat
    | _ => true
  | _ => true

/-- Why the decoder rejects. -/
inductive Reject where
  /-- 0x0100, undefined encoding (R62) -/
  | undefined
  /-- 0x0101, reserved field not zero (R55) -/
  | reservedField
  /-- fewer words were given than the first word's LEN asks for (R45) -/
  | short
  deriving DecidableEq, Repr

/-! ### Base words (R48, R58, R59) -/

/-- The instruction when a field that it does not use is zero (R50). -/
def whenB0 (b : BitVec 5) (i : Instr) : Option Instr := if b = 0 then some i else none

/-- INT, R105. -/
def decodeInt (func : Nat) (d a b : SOpd) : Option Instr :=
  match func with
  | 0x001 => some (.add d a b)
  | 0x002 => some (.sub d a b)
  | 0x003 => some (.mul d a b)
  | 0x004 => some (.mulh d a b)
  | 0x005 => some (.div d a b)
  | 0x006 => some (.divu d a b)
  | 0x007 => some (.rem d a b)
  | 0x008 => some (.remu d a b)
  | 0x009 => some (.and d a b)
  | 0x00A => some (.or d a b)
  | 0x00B => some (.xor d a b)
  | 0x00C => some (.andn d a b)
  | 0x00D => some (.sll d a b)
  | 0x00E => some (.srl d a b)
  | 0x00F => some (.sra d a b)
  | 0x010 => some (.ror d a b)
  | 0x011 => some (.min d a b)
  | 0x012 => some (.max d a b)
  | 0x013 => some (.slt d a b)
  | 0x014 => some (.sltu d a b)
  | 0x015 => some (.seq d a b)
  | 0x016 => some (.sne d a b)
  | 0x017 => some (.cmovz d a b)
  | 0x018 => some (.cmovn d a b)
  | 0x019 => some (.addsat d a b)
  | _ => none

/-- BITS, R107. -/
def decodeBits (func : Nat) (d a : SOpd) (b : BitVec 5) : Option Instr :=
  if func / 64 = 4 then some (.fsli d a (SOpd.ofBits b) (BitVec.ofNat 6 func))
  else if func / 64 = 5 then some (.fsri d a (SOpd.ofBits b) (BitVec.ofNat 6 func))
  else
    match func with
    | 0x000 => whenB0 b (.popc d a)
    | 0x001 => whenB0 b (.clz d a)
    | 0x002 => whenB0 b (.ctz d a)
    | 0x003 => whenB0 b (.brev d a)
    | 0x004 => whenB0 b (.bswap d a)
    | 0x005 => some (.mkm d a (SOpd.ofBits b))
    | _ => none

/-- CTL, R130. -/
def decodeCtl (func : Nat) (d a b : BitVec 5) : Option Instr :=
  match func with
  | 0x000 => if d = 0 ∧ a = 0 ∧ b = 0 then some .yield else none
  | 0x001 => whenB0 b (.wait (SOpd.ofBits d) (SOpd.ofBits a))
  | 0x002 => if d = 0 ∧ a = 0 ∧ b = 0 then some .endAct else none
  | 0x003 => some (.trap (b ++ a ++ d))
  | 0x004 => if d = 0 ∧ a = 0 ∧ b = 0 then some .upret else none
  | 0x005 => if d = 0 ∧ b = 0 then some (.wpx (SOpd.ofBits a)) else none
  | 0x006 => if d = 0 ∧ a = 0 ∧ b = 0 then some .ifence else none
  | _ => none

/-- LNK, R246. -/
def decodeLnk (func : Nat) (d a b : BitVec 5) : Option Instr :=
  if a ≠ 0 ∨ b ≠ 0 then none
  else
    match func with
    | 0x000 => some (.lclaim (SOpd.ofBits d))
    | 0x001 => if d = 0 then some .lfree else none
    | 0x002 => some (.lpoll (SOpd.ofBits d))
    | _ => none

/-- HOST, R403. -/
noncomputable def decodeHost (func : Nat) (d a b : BitVec 5) : Option Instr :=
  match func with
  | 0x000 => if a = 0 ∧ b = 0 then some (.rdtime (SOpd.ofBits d)) else none
  | 0x001 => if d = 0 then some (.alarm (SOpd.ofBits a) (SOpd.ofBits b)) else none
  | 0x002 => if b = 0 then some (.sys (SOpd.ofBits d) (SOpd.ofBits a)) else none
  | 0x003 => if d = 0 then some (.sigIrq (SOpd.ofBits a) (SOpd.ofBits b)) else none
  | _ => none

/-- PAGE, R390. -/
noncomputable def decodePage (func : Nat) (d a b : BitVec 5) : Option Instr :=
  if func = 0 ∧ d = 0 ∧ b = 0 then some (.pfetch (SOpd.ofBits a))
  else if func = 0 ∧ d = 0 ∧ b = 1 then some (.pfetchMv (SOpd.ofBits a))
  else none

/-- DIAG, R138. -/
noncomputable def decodeDiag (func : Nat) (d a b : BitVec 5) : Option Instr :=
  if func = 0 ∧ b = 0 ∧ d = 0 then some (.evsnap (SOpd.ofBits a))
  else if func = 0 ∧ b = 0 ∧ d = 1 then some (.evsnapClear (SOpd.ofBits a))
  else none

/-- VFP, R144. -/
def decodeVfp (func : Nat) (vd va vb : VOpd) (b : BitVec 5) : Option Instr :=
  match func with
  | 0x000 => some (.vadd .f32 vd va vb)
  | 0x001 => some (.vadd .bf16 vd va vb)
  | 0x002 => some (.vadd .f16 vd va vb)
  | 0x004 => some (.vsub .f32 vd va vb)
  | 0x005 => some (.vsub .bf16 vd va vb)
  | 0x006 => some (.vsub .f16 vd va vb)
  | 0x008 => some (.vmul .f32 vd va vb)
  | 0x009 => some (.vmul .bf16 vd va vb)
  | 0x00A => some (.vmul .f16 vd va vb)
  | 0x00C => some (.vfma .f32 vd va vb)
  | 0x00D => some (.vfma .bf16 vd va vb)
  | 0x00E => some (.vfma .f16 vd va vb)
  | 0x010 => some (.vfms .f32 vd va vb)
  | 0x011 => some (.vfms .bf16 vd va vb)
  | 0x012 => some (.vfms .f16 vd va vb)
  | 0x014 => some (.vmin .f32 vd va vb)
  | 0x015 => some (.vmin .bf16 vd va vb)
  | 0x016 => some (.vmin .f16 vd va vb)
  | 0x018 => some (.vmax .f32 vd va vb)
  | 0x019 => some (.vmax .bf16 vd va vb)
  | 0x01A => some (.vmax .f16 vd va vb)
  | 0x01C => whenB0 b (.vabs .f32 vd va)
  | 0x01D => whenB0 b (.vabs .bf16 vd va)
  | 0x01E => whenB0 b (.vabs .f16 vd va)
  | 0x020 => whenB0 b (.vneg .f32 vd va)
  | 0x021 => whenB0 b (.vneg .bf16 vd va)
  | 0x022 => whenB0 b (.vneg .f16 vd va)
  | _ => none

/-- VPAIR, R148. -/
def decodeVpair (func : Nat) (vd va vb : VOpd) (b : BitVec 5) : Option Instr :=
  match func with
  | 0x000 => some (.vaddX vd va vb)
  | 0x001 => some (.vsubX vd va vb)
  | 0x002 => some (.vmulX vd va vb)
  | 0x008 => some (.vdwadd vd va vb)
  | 0x009 => some (.vdwmul vd va vb)
  | 0x00A => some (.vdwfma vd va vb)
  | 0x00B => whenB0 b (.vdwround vd va)
  | 0x010 => whenB0 b (.vcsum vd va)
  | 0x011 => some (.vcdot vd va vb)
  | _ => none

/-- VRED, R154, R155. -/
def decodeVred (func : Nat) (vd va : VOpd) (b : BitVec 5) : Option Instr :=
  match func with
  | 0x000 => whenB0 b (.vsum .f32 vd va)
  | 0x001 => whenB0 b (.vsum .bf16 vd va)
  | 0x002 => whenB0 b (.vsum .f16 vd va)
  | 0x004 => whenB0 b (.vrmax .f32 vd va)
  | 0x005 => whenB0 b (.vrmax .bf16 vd va)
  | 0x006 => whenB0 b (.vrmax .f16 vd va)
  | 0x008 => whenB0 b (.vrmin .f32 vd va)
  | 0x009 => whenB0 b (.vrmin .bf16 vd va)
  | 0x00A => whenB0 b (.vrmin .f16 vd va)
  | 0x00C => whenB0 b (.vscan .f32 vd va)
  | 0x00D => whenB0 b (.vscan .bf16 vd va)
  | 0x00E => whenB0 b (.vscan .f16 vd va)
  | 0x010 => some (.vgmax .f32 vd va b)
  | 0x011 => some (.vgmax .bf16 vd va b)
  | 0x012 => some (.vgmax .f16 vd va b)
  | _ => none

/-- VINT, R156. -/
def decodeVint (func : Nat) (vd va vb : VOpd) : Option Instr :=
  match func with
  | 0x000 => some (.viadd .b vd va vb)
  | 0x001 => some (.viadd .h vd va vb)
  | 0x002 => some (.viadd .w vd va vb)
  | 0x003 => some (.viadd .d vd va vb)
  | 0x004 => some (.visub .b vd va vb)
  | 0x005 => some (.visub .h vd va vb)
  | 0x006 => some (.visub .w vd va vb)
  | 0x007 => some (.visub .d vd va vb)
  | 0x008 => some (.vimul .b vd va vb)
  | 0x009 => some (.vimul .h vd va vb)
  | 0x00A => some (.vimul .w vd va vb)
  | 0x00B => some (.vimul .d vd va vb)
  | 0x00C => some (.vimin .b vd va vb)
  | 0x00D => some (.vimin .h vd va vb)
  | 0x00E => some (.vimin .w vd va vb)
  | 0x00F => some (.vimin .d vd va vb)
  | 0x010 => some (.vimax .b vd va vb)
  | 0x011 => some (.vimax .h vd va vb)
  | 0x012 => some (.vimax .w vd va vb)
  | 0x013 => some (.vimax .d vd va vb)
  | 0x014 => some (.viand .b vd va vb)
  | 0x015 => some (.viand .h vd va vb)
  | 0x016 => some (.viand .w vd va vb)
  | 0x017 => some (.viand .d vd va vb)
  | 0x018 => some (.vior .b vd va vb)
  | 0x019 => some (.vior .h vd va vb)
  | 0x01A => some (.vior .w vd va vb)
  | 0x01B => some (.vior .d vd va vb)
  | 0x01C => some (.vixor .b vd va vb)
  | 0x01D => some (.vixor .h vd va vb)
  | 0x01E => some (.vixor .w vd va vb)
  | 0x01F => some (.vixor .d vd va vb)
  | 0x020 => some (.visll .b vd va vb)
  | 0x021 => some (.visll .h vd va vb)
  | 0x022 => some (.visll .w vd va vb)
  | 0x023 => some (.visll .d vd va vb)
  | 0x024 => some (.visrl .b vd va vb)
  | 0x025 => some (.visrl .h vd va vb)
  | 0x026 => some (.visrl .w vd va vb)
  | 0x027 => some (.visrl .d vd va vb)
  | 0x028 => some (.vifsl .b vd va vb)
  | 0x029 => some (.vifsl .h vd va vb)
  | 0x02A => some (.vifsl .w vd va vb)
  | 0x02B => some (.vifsl .d vd va vb)
  | 0x02C => some (.vifsr .b vd va vb)
  | 0x02D => some (.vifsr .h vd va vb)
  | 0x02E => some (.vifsr .w vd va vb)
  | 0x02F => some (.vifsr .d vd va vb)
  | _ => none

/-- VCMP, R157, R158. -/
def decodeVcmp (func : Nat) (sd : SOpd) (va vb : VOpd) : Option Instr :=
  match func with
  | 0x000 => some (.veq .f32 sd va vb)
  | 0x001 => some (.veq .bf16 sd va vb)
  | 0x002 => some (.veq .f16 sd va vb)
  | 0x004 => some (.vlt .f32 sd va vb)
  | 0x005 => some (.vlt .bf16 sd va vb)
  | 0x006 => some (.vlt .f16 sd va vb)
  | 0x008 => some (.vle .f32 sd va vb)
  | 0x009 => some (.vle .bf16 sd va vb)
  | 0x00A => some (.vle .f16 sd va vb)
  | 0x00C => some (.vne .f32 sd va vb)
  | 0x00D => some (.vne .bf16 sd va vb)
  | 0x00E => some (.vne .f16 sd va vb)
  | 0x010 => some (.vuno .f32 sd va vb)
  | 0x011 => some (.vuno .bf16 sd va vb)
  | 0x012 => some (.vuno .f16 sd va vb)
  | 0x020 => some (.vieq .b sd va vb)
  | 0x021 => some (.vieq .h sd va vb)
  | 0x022 => some (.vieq .w sd va vb)
  | 0x023 => some (.vieq .d sd va vb)
  | 0x024 => some (.vilt .b sd va vb)
  | 0x025 => some (.vilt .h sd va vb)
  | 0x026 => some (.vilt .w sd va vb)
  | 0x027 => some (.vilt .d sd va vb)
  | _ => none

/-- VCVT, R161, R163. -/
def decodeVcvt (func : Nat) (vd va vb : VOpd) (b : BitVec 5) : Option Instr :=
  match func with
  | 0x000 => some (.vcvt vd va vb)
  | 0x001 => whenB0 b (.vcvti vd va)
  | 0x002 => whenB0 b (.vcvtf vd va)
  | 0x003 => some (.vpack vd va vb)
  | _ => none

/-- VAPX, R164. -/
def decodeVapx (func : Nat) (vd va : VOpd) (b : BitVec 5) : Option Instr :=
  match func with
  | 0x000 => whenB0 b (.vrcp vd va)
  | 0x001 => whenB0 b (.vrsq vd va)
  | 0x002 => whenB0 b (.vexp2 vd va)
  | _ => none

/-- VPERM, R166. -/
def decodeVperm (func : Nat) (vd va vb : VOpd) (sd sa sb : SOpd) (b : BitVec 5) : Option Instr :=
  match func with
  | 0x000 => whenB0 b (.vmov vd va)
  | 0x004 => whenB0 b (.vbcst .b vd sa)
  | 0x005 => whenB0 b (.vbcst .h vd sa)
  | 0x006 => whenB0 b (.vbcst .w vd sa)
  | 0x007 => whenB0 b (.vbcst .d vd sa)
  | 0x008 => some (.vperm .b vd va vb)
  | 0x009 => some (.vperm .h vd va vb)
  | 0x00A => some (.vperm .w vd va vb)
  | 0x00B => some (.vperm .d vd va vb)
  | 0x00C => some (.vins .b vd sa sb)
  | 0x00D => some (.vins .h vd sa sb)
  | 0x00E => some (.vins .w vd sa sb)
  | 0x00F => some (.vins .d vd sa sb)
  | 0x010 => some (.vext .b sd va sb)
  | 0x011 => some (.vext .h sd va sb)
  | 0x012 => some (.vext .w sd va sb)
  | 0x013 => some (.vext .d sd va sb)
  | _ => none

/-- VDATA, R167, R168. -/
noncomputable def decodeVdata (func : Nat) (vd va vb : VOpd) (sb : SOpd) (b : BitVec 5) : Option Instr :=
  match func with
  | 0x000 => some (.vcomp vd va sb)
  | 0x001 => some (.vexpd vd va sb)
  | 0x002 => whenB0 b (.vksort vd va)
  | 0x003 => some (.vsearch vd va vb)
  | 0x004 => whenB0 b (.vconf vd va)
  | _ => none

/-- VPK, R147. -/
noncomputable def decodeVpk (func : Nat) (vd va vb : VOpd) : Option Instr :=
  match func with
  | 0x000 => some (.vpadd .e4m3 vd va vb)
  | 0x001 => some (.vpadd .e5m2 vd va vb)
  | 0x002 => some (.vpsub .e4m3 vd va vb)
  | 0x003 => some (.vpsub .e5m2 vd va vb)
  | 0x004 => some (.vpmul .e4m3 vd va vb)
  | 0x005 => some (.vpmul .e5m2 vd va vb)
  | 0x006 => some (.vpfma .e4m3 vd va vb)
  | 0x007 => some (.vpfma .e5m2 vd va vb)
  | _ => none

/-- R176: the two forms of `vloop`, IMM[4:0] holding k. -/
def decodeVloop (d a : BitVec 5) (imm : BitVec 14) : Option Instr :=
  if d ≠ 0 then none
  else if a = 0 then some (.vloop (imm.extractLsb' 0 5) (imm.extractLsb' 5 9))
  else if imm.extractLsb' 5 9 = 0 then some (.vloopRegister (imm.extractLsb' 0 5) (SOpd.ofBits a))
  else none

/-- R111: IMM[13:8] zero, the selector in IMM[7:6]. -/
def decodeShift (d a : SOpd) (imm : BitVec 14) : Option Instr :=
  if imm.extractLsb' 8 6 ≠ 0 then none
  else
    match (imm.extractLsb' 6 2).toNat with
    | 0 => some (.slli d a (imm.extractLsb' 0 6))
    | 1 => some (.srli d a (imm.extractLsb' 0 6))
    | 2 => some (.srai d a (imm.extractLsb' 0 6))
    | _ => none

/-- R112: IMM[13] zero; a `bfi` has X = 0. -/
def decodeBfx (d a : SOpd) (imm : BitVec 14) : Option Instr :=
  if imm.getLsbD 13 then none else some (.bfx d a (imm.extractLsb' 0 6) (imm.extractLsb' 6 6) (imm.getLsbD 12))

/-- R112. -/
def decodeBfi (d a : SOpd) (imm : BitVec 14) : Option Instr :=
  if imm.extractLsb' 12 2 ≠ 0 then none else some (.bfi d a (imm.extractLsb' 0 6) (imm.extractLsb' 6 6))

/-- A word with LEN = 0b00, by its major opcode (R58). -/
noncomputable def decodeBase (w : IWord) : Option Instr :=
  let d := w.extractLsb' 8 5
  let a := w.extractLsb' 13 5
  let b := w.extractLsb' 18 5
  let imm := w.extractLsb' 18 14
  let func := (w.extractLsb' 23 9).toNat
  let sd := SOpd.ofBits d
  let sa := SOpd.ofBits a
  let sb := SOpd.ofBits b
  let vd := VOpd.ofBits d
  let va := VOpd.ofBits a
  let vb := VOpd.ofBits b
  match (w.extractLsb' 2 6).toNat with
  | 0x00 => decodeInt func sd sa sb
  | 0x01 => decodeBits func sd sa b
  | 0x02 => some (.addi sd sa imm)
  | 0x03 => some (.andi sd sa imm)
  | 0x04 => some (.ori sd sa imm)
  | 0x05 => some (.xori sd sa imm)
  | 0x06 => some (.slti sd sa imm)
  | 0x07 => decodeShift sd sa imm
  | 0x08 => decodeBfx sd sa imm
  | 0x09 => decodeBfi sd sa imm
  | 0x0A => some (.lpc sd (w.extractLsb' 13 19))
  | 0x0B => some (.jalr sd sa imm)
  | 0x0C => if a = 0 ∧ imm.extractLsb' 12 2 = 0 then some (.mfcr sd (imm.extractLsb' 0 12)) else none
  | 0x0D => if d = 0 ∧ imm.extractLsb' 12 2 = 0 then some (.mtcr (imm.extractLsb' 0 12) sa) else none
  | 0x0E => decodeVloop d a imm
  | 0x0F => some (.beq sd sa imm)
  | 0x10 => some (.bne sd sa imm)
  | 0x11 => some (.blt sd sa imm)
  | 0x12 => some (.bge sd sa imm)
  | 0x13 => some (.bltu sd sa imm)
  | 0x14 => some (.bgeu sd sa imm)
  | 0x15 => some (.bany sd sa imm)
  | 0x16 => some (.ball sd sa imm)
  | 0x17 => some (.bnone sd sa imm)
  | 0x18 => some (.j (w.extractLsb' 8 24))
  | 0x19 => some (.jal (w.extractLsb' 8 24))
  | 0x1A => some (.cue (w.extractLsb' 8 24))
  | 0x1B => some (.ldB sd sa imm)
  | 0x1C => some (.ldBz sd sa imm)
  | 0x1D => some (.ldH sd sa imm)
  | 0x1E => some (.ldHz sd sa imm)
  | 0x1F => some (.ldW sd sa imm)
  | 0x20 => some (.ldWz sd sa imm)
  | 0x21 => some (.ldD sd sa imm)
  | 0x22 => some (.ldInv sd sa imm)
  | 0x23 => some (.stB sd sa imm)
  | 0x24 => some (.stH sd sa imm)
  | 0x25 => some (.stW sd sa imm)
  | 0x26 => some (.stD sd sa imm)
  | 0x27 => some (.vld vd a imm)
  | 0x28 => some (.vst vd a imm)
  | 0x29 => decodeCtl func d a b
  | 0x2D => decodeLnk func d a b
  | 0x2E => decodeVfp func vd va vb b
  | 0x2F => decodeVpair func vd va vb b
  | 0x30 => decodeVred func vd va b
  | 0x31 => decodeVint func vd va vb
  | 0x32 => decodeVcmp func sd va vb
  | 0x33 => decodeVcvt func vd va vb b
  | 0x34 => decodeVapx func vd va b
  | 0x35 => decodeVperm func vd va vb sd sa sb b
  | 0x36 => decodeVdata func vd va vb sb b
  | 0x38 => decodeVpk func vd va vb
  | 0x3C => decodeHost func d a b
  | 0x3D => decodePage func d a b
  | 0x3E => decodeDiag func d a b
  | _ => none

/-! ### The extended form (R51, R58, R59) -/

/-- R59, major 0x2A in the extended form. -/
def decodeXMemx (func : Nat) (x : Ext) : Option Instr :=
  match func with
  | 0x000 => some (.ldxW x)
  | 0x001 => some (.ldxD x)
  | 0x002 => some (.stxW x)
  | 0x003 => some (.stxD x)
  | 0x010 => some (.amaddW x)
  | 0x011 => some (.amaddD x)
  | 0x012 => some (.amminW x)
  | 0x013 => some (.amminD x)
  | 0x014 => some (.ammaxW x)
  | 0x015 => some (.ammaxD x)
  | 0x016 => some (.amcasW x)
  | 0x017 => some (.amcasD x)
  | 0x018 => some (.amandD x)
  | 0x019 => some (.amorD x)
  | 0x01A => some (.amxorD x)
  | 0x01B => some (.amswapD x)
  | 0x01C => some (.amldD x)
  | 0x01D => some (.amstD x)
  | 0x01E => some (.amfaddW x)
  | _ => none

/-- R59, major 0x2B in the extended form. -/
def decodeXSync (func : Nat) (x : Ext) : Option Instr :=
  match func with
  | 0x000 => some (.curtn x)
  | 0x001 => some (.curtnRel x)
  | 0x002 => some (.curtnAcq x)
  | 0x003 => some (.succgo x)
  | 0x004 => some (.predwait x)
  | 0x008 => some (.barArr x)
  | 0x009 => some (.barWait x)
  | 0x00A => some (.barAdd x)
  | 0x010 => some (.ownGive x)
  | _ => none

/-- R59, major 0x2C in the extended form. -/
def decodeXPar (func : Nat) (x : Ext) : Option Instr :=
  match func with
  | 0x000 => some (.send x)
  | 0x001 => some (.sendh x)
  | 0x002 => some (.sendk x)
  | 0x003 => some (.spawn x)
  | 0x004 => some (.gainadd x)
  | 0x005 => some (.resadd x)
  | 0x006 => some (.gang x)
  | 0x007 => some (.ungang x)
  | 0x008 => some (.myid x)
  | 0x009 => some (.trcAdd x)
  | 0x00A => some (.trcGet x)
  | 0x00B => some (.kmap x)
  | 0x00C => some (.defh x)
  | _ => none

/-- R59, major 0x2E in the extended form. -/
def decodeXVfp (func : Nat) (x : Ext) : Option Instr :=
  match func with
  | 0x000 => some (.vaddExt .f32 x)
  | 0x001 => some (.vaddExt .bf16 x)
  | 0x002 => some (.vaddExt .f16 x)
  | 0x004 => some (.vsubExt .f32 x)
  | 0x005 => some (.vsubExt .bf16 x)
  | 0x006 => some (.vsubExt .f16 x)
  | 0x008 => some (.vmulExt .f32 x)
  | 0x009 => some (.vmulExt .bf16 x)
  | 0x00A => some (.vmulExt .f16 x)
  | 0x00C => some (.vfmaExt .f32 x)
  | 0x00D => some (.vfmaExt .bf16 x)
  | 0x00E => some (.vfmaExt .f16 x)
  | 0x010 => some (.vfmsExt .f32 x)
  | 0x011 => some (.vfmsExt .bf16 x)
  | 0x012 => some (.vfmsExt .f16 x)
  | 0x014 => some (.vminExt .f32 x)
  | 0x015 => some (.vminExt .bf16 x)
  | 0x016 => some (.vminExt .f16 x)
  | 0x018 => some (.vmaxExt .f32 x)
  | 0x019 => some (.vmaxExt .bf16 x)
  | 0x01A => some (.vmaxExt .f16 x)
  | 0x01C => some (.vabsExt .f32 x)
  | 0x01D => some (.vabsExt .bf16 x)
  | 0x01E => some (.vabsExt .f16 x)
  | 0x020 => some (.vnegExt .f32 x)
  | 0x021 => some (.vnegExt .bf16 x)
  | 0x022 => some (.vnegExt .f16 x)
  | _ => none

/-- R59, major 0x2F in the extended form. -/
def decodeXVpair (func : Nat) (x : Ext) : Option Instr :=
  match func with
  | 0x000 => some (.vaddXExt x)
  | 0x001 => some (.vsubXExt x)
  | 0x002 => some (.vmulXExt x)
  | 0x008 => some (.vdwaddExt x)
  | 0x009 => some (.vdwmulExt x)
  | 0x00A => some (.vdwfmaExt x)
  | 0x00B => some (.vdwroundExt x)
  | 0x010 => some (.vcsumExt x)
  | 0x011 => some (.vcdotExt x)
  | _ => none

/-- R59, major 0x30 in the extended form. -/
def decodeXVred (func : Nat) (x : Ext) : Option Instr :=
  match func with
  | 0x000 => some (.vsumExt .f32 x)
  | 0x001 => some (.vsumExt .bf16 x)
  | 0x002 => some (.vsumExt .f16 x)
  | 0x004 => some (.vrmaxExt .f32 x)
  | 0x005 => some (.vrmaxExt .bf16 x)
  | 0x006 => some (.vrmaxExt .f16 x)
  | 0x008 => some (.vrminExt .f32 x)
  | 0x009 => some (.vrminExt .bf16 x)
  | 0x00A => some (.vrminExt .f16 x)
  | 0x00C => some (.vscanExt .f32 x)
  | 0x00D => some (.vscanExt .bf16 x)
  | 0x00E => some (.vscanExt .f16 x)
  | 0x010 => some (.vgmaxExt .f32 x)
  | 0x011 => some (.vgmaxExt .bf16 x)
  | 0x012 => some (.vgmaxExt .f16 x)
  | _ => none

/-- R59, major 0x31 in the extended form. -/
def decodeXVint (func : Nat) (x : Ext) : Option Instr :=
  match func with
  | 0x000 => some (.viaddExt .b x)
  | 0x001 => some (.viaddExt .h x)
  | 0x002 => some (.viaddExt .w x)
  | 0x003 => some (.viaddExt .d x)
  | 0x004 => some (.visubExt .b x)
  | 0x005 => some (.visubExt .h x)
  | 0x006 => some (.visubExt .w x)
  | 0x007 => some (.visubExt .d x)
  | 0x008 => some (.vimulExt .b x)
  | 0x009 => some (.vimulExt .h x)
  | 0x00A => some (.vimulExt .w x)
  | 0x00B => some (.vimulExt .d x)
  | 0x00C => some (.viminExt .b x)
  | 0x00D => some (.viminExt .h x)
  | 0x00E => some (.viminExt .w x)
  | 0x00F => some (.viminExt .d x)
  | 0x010 => some (.vimaxExt .b x)
  | 0x011 => some (.vimaxExt .h x)
  | 0x012 => some (.vimaxExt .w x)
  | 0x013 => some (.vimaxExt .d x)
  | 0x014 => some (.viandExt .b x)
  | 0x015 => some (.viandExt .h x)
  | 0x016 => some (.viandExt .w x)
  | 0x017 => some (.viandExt .d x)
  | 0x018 => some (.viorExt .b x)
  | 0x019 => some (.viorExt .h x)
  | 0x01A => some (.viorExt .w x)
  | 0x01B => some (.viorExt .d x)
  | 0x01C => some (.vixorExt .b x)
  | 0x01D => some (.vixorExt .h x)
  | 0x01E => some (.vixorExt .w x)
  | 0x01F => some (.vixorExt .d x)
  | 0x020 => some (.visllExt .b x)
  | 0x021 => some (.visllExt .h x)
  | 0x022 => some (.visllExt .w x)
  | 0x023 => some (.visllExt .d x)
  | 0x024 => some (.visrlExt .b x)
  | 0x025 => some (.visrlExt .h x)
  | 0x026 => some (.visrlExt .w x)
  | 0x027 => some (.visrlExt .d x)
  | 0x028 => some (.vifslExt .b x)
  | 0x029 => some (.vifslExt .h x)
  | 0x02A => some (.vifslExt .w x)
  | 0x02B => some (.vifslExt .d x)
  | 0x02C => some (.vifsrExt .b x)
  | 0x02D => some (.vifsrExt .h x)
  | 0x02E => some (.vifsrExt .w x)
  | 0x02F => some (.vifsrExt .d x)
  | _ => none

/-- R59, major 0x32 in the extended form. -/
def decodeXVcmp (func : Nat) (x : Ext) : Option Instr :=
  match func with
  | 0x000 => some (.veqExt .f32 x)
  | 0x001 => some (.veqExt .bf16 x)
  | 0x002 => some (.veqExt .f16 x)
  | 0x004 => some (.vltExt .f32 x)
  | 0x005 => some (.vltExt .bf16 x)
  | 0x006 => some (.vltExt .f16 x)
  | 0x008 => some (.vleExt .f32 x)
  | 0x009 => some (.vleExt .bf16 x)
  | 0x00A => some (.vleExt .f16 x)
  | 0x00C => some (.vneExt .f32 x)
  | 0x00D => some (.vneExt .bf16 x)
  | 0x00E => some (.vneExt .f16 x)
  | 0x010 => some (.vunoExt .f32 x)
  | 0x011 => some (.vunoExt .bf16 x)
  | 0x012 => some (.vunoExt .f16 x)
  | 0x020 => some (.vieqExt .b x)
  | 0x021 => some (.vieqExt .h x)
  | 0x022 => some (.vieqExt .w x)
  | 0x023 => some (.vieqExt .d x)
  | 0x024 => some (.viltExt .b x)
  | 0x025 => some (.viltExt .h x)
  | 0x026 => some (.viltExt .w x)
  | 0x027 => some (.viltExt .d x)
  | 0x030 => some (.vsel x)
  | _ => none

/-- R59, major 0x33 in the extended form. -/
def decodeXVcvt (func : Nat) (x : Ext) : Option Instr :=
  match func with
  | 0x000 => some (.vcvtExt x)
  | 0x001 => some (.vcvtiExt x)
  | 0x002 => some (.vcvtfExt x)
  | 0x003 => some (.vpackExt x)
  | _ => none

/-- R59, major 0x34 in the extended form. -/
def decodeXVapx (func : Nat) (x : Ext) : Option Instr :=
  match func with
  | 0x000 => some (.vrcpExt x)
  | 0x001 => some (.vrsqExt x)
  | 0x002 => some (.vexp2Ext x)
  | _ => none

/-- R59, major 0x35 in the extended form. -/
def decodeXVperm (func : Nat) (x : Ext) : Option Instr :=
  match func with
  | 0x000 => some (.vmovExt x)
  | 0x004 => some (.vbcstExt .b x)
  | 0x005 => some (.vbcstExt .h x)
  | 0x006 => some (.vbcstExt .w x)
  | 0x007 => some (.vbcstExt .d x)
  | 0x008 => some (.vpermExt .b x)
  | 0x009 => some (.vpermExt .h x)
  | 0x00A => some (.vpermExt .w x)
  | 0x00B => some (.vpermExt .d x)
  | 0x00C => some (.vinsExt .b x)
  | 0x00D => some (.vinsExt .h x)
  | 0x00E => some (.vinsExt .w x)
  | 0x00F => some (.vinsExt .d x)
  | 0x010 => some (.vextExt .b x)
  | 0x011 => some (.vextExt .h x)
  | 0x012 => some (.vextExt .w x)
  | 0x013 => some (.vextExt .d x)
  | _ => none

/-- R59, major 0x36 in the extended form. -/
noncomputable def decodeXVdata (func : Nat) (x : Ext) : Option Instr :=
  match func with
  | 0x000 => some (.vcompExt x)
  | 0x001 => some (.vexpdExt x)
  | 0x002 => some (.vksortExt x)
  | 0x003 => some (.vsearchExt x)
  | 0x004 => some (.vconfExt x)
  | _ => none

/-- R59, major 0x37 in the extended form. -/
noncomputable def decodeXVmem (func : Nat) (x : Ext) : Option Instr :=
  match func with
  | 0x000 => some (.vldx x)
  | 0x001 => some (.vstx x)
  | 0x002 => some (.vlds x)
  | 0x003 => some (.vsts x)
  | 0x004 => some (.vldu x)
  | 0x005 => some (.vstu x)
  | 0x006 => some (.vstm x)
  | 0x007 => some (.vldt x)
  | 0x008 => some (.vstt x)
  | _ => none

/-- R59, major 0x38 in the extended form. -/
noncomputable def decodeXVpk (func : Nat) (x : Ext) : Option Instr :=
  match func with
  | 0x000 => some (.vpaddExt .e4m3 x)
  | 0x001 => some (.vpaddExt .e5m2 x)
  | 0x002 => some (.vpsubExt .e4m3 x)
  | 0x003 => some (.vpsubExt .e5m2 x)
  | 0x004 => some (.vpmulExt .e4m3 x)
  | 0x005 => some (.vpmulExt .e5m2 x)
  | 0x006 => some (.vpfmaExt .e4m3 x)
  | 0x007 => some (.vpfmaExt .e5m2 x)
  | _ => none

/-- R59, major 0x39 in the extended form. -/
noncomputable def decodeXTens (func : Nat) (x : Ext) : Option Instr :=
  match func with
  | 0x000 => some (.tnew x)
  | 0x001 => some (.tfree x)
  | 0x002 => some (.twiden x)
  | 0x003 => some (.tget x)
  | 0x004 => some (.tset x)
  | 0x005 => some (.tfill x)
  | 0x006 => some (.tscale x)
  | 0x007 => some (.tadd x)
  | 0x008 => some (.trowsum x)
  | 0x009 => some (.tcolsum x)
  | 0x00A => some (.trowmax x)
  | 0x00B => some (.ttrans x)
  | 0x00C => some (.tconv x)
  | 0x00D => some (.tcopyin x)
  | 0x00E => some (.tcopyout x)
  | 0x00F => some (.tsync x)
  | 0x010 => some (.tinfo x)
  | _ => none

/-- R59, major 0x3A in the extended form. -/
noncomputable def decodeXMx (func : Nat) (x : Ext) : Option Instr :=
  match func with
  | 0x000 => some (.mxr x)
  | 0x001 => some (.mxz x)
  | 0x002 => some (.mxb x)
  | 0x003 => some (.mxa x)
  | 0x004 => some (.mxo x)
  | 0x005 => some (.mxw x)
  | _ => none

/-- R59, major 0x3B in the extended form. -/
noncomputable def decodeXEng (func : Nat) (x : Ext) : Option Instr :=
  match func with
  | 0x000 =>
    match x.immField 0 2 with
    | 0 => some (.xcopyFill x)
    | 1 => some (.xcopyDrain x)
    | 2 => some (.xcopyGather x)
    | _ => some (.xcopyScatter x)
  | 0x001 => some (.xwait x)
  | 0x002 =>
    match x.immField 0 3 with
    | 0 => some (.bxfFill x)
    | 1 => some (.bxfScale x)
    | 2 => some (.bxfAddc x)
    | 3 => some (.bxfConv x)
    | _ => some (.bxfTrans x)
  | _ => none

/-- A listed function of an extended-form major (R58: the majors whose row shows 10). -/
noncomputable def decodeX (major func : Nat) (x : Ext) : Option Instr :=
  match major with
  | 0x2A => decodeXMemx func x
  | 0x2B => decodeXSync func x
  | 0x2C => decodeXPar func x
  | 0x2E => decodeXVfp func x
  | 0x2F => decodeXVpair func x
  | 0x30 => decodeXVred func x
  | 0x31 => decodeXVint func x
  | 0x32 => decodeXVcmp func x
  | 0x33 => decodeXVcvt func x
  | 0x34 => decodeXVapx func x
  | 0x35 => decodeXVperm func x
  | 0x36 => decodeXVdata func x
  | 0x37 => decodeXVmem func x
  | 0x38 => decodeXVpk func x
  | 0x39 => decodeXTens func x
  | 0x3A => decodeXMx func x
  | 0x3B => decodeXEng func x
  | _ => none

/-- The two instructions that take a literal in the extended form (R58, R59). -/
noncomputable def decodeXL (major func : Nat) (x : Ext) (lit : Word) : Option Instr :=
  match major, func with
  | 0x35, 0x004 => some (.vbcstLiteral .b x lit)
  | 0x35, 0x005 => some (.vbcstLiteral .h x lit)
  | 0x35, 0x006 => some (.vbcstLiteral .w x lit)
  | 0x35, 0x007 => some (.vbcstLiteral .d x lit)
  | 0x39, 0x005 => some (.tfillLiteral x lit)
  | _, _ => none

/-- The extended fields of words 0–2, with RO, SCP and MASK taken as 0 where their codes are refused. -/
def extFields (w0 w1 w2 : IWord) : Ext where
  od := Spec.ofBits (w0.extractLsb' 17 7)
  oa := Spec.ofBits (w0.extractLsb' 24 7)
  ob := Spec.ofBits (w1.extractLsb' 0 7)
  oc := Spec.ofBits (w1.extractLsb' 7 7)
  z := w0.getLsbD 31
  me := w1.getLsbD 19
  mask := if h : (w1.extractLsb' 14 5).toNat < 24 then ⟨(w1.extractLsb' 14 5).toNat, h⟩ else 0
  et := Fmt.ofCode (w1.extractLsb' 20 4)
  ro := (roOfCode (w1.extractLsb' 24 3)).getD none
  scp := (Scope.ofCode (w1.extractLsb' 27 3)).getD .core
  acq := w1.getLsbD 30
  rel := w1.getLsbD 31
  imm := w2

/-- R55, first and fourth points: RO, SCP and MASK hold codes that name something. -/
def extCodesOk (w1 : IWord) : Bool :=
  (roOfCode (w1.extractLsb' 24 3)).isSome && (Scope.ofCode (w1.extractLsb' 27 3)).isSome && (w1.extractLsb' 14 5).toNat < 24

/-- The verdict on a candidate: undefined first, then reserved fields (R57). -/
def settle (codesOk : Bool) : Option Instr → Except Reject Instr
  | none => .error .undefined
  | some i =>
    if !i.defined then .error .undefined
    else
      match i.extUse with
      | none => .ok i
      | some (x, u) => if codesOk && x.fits u then .ok i else .error .reservedField

/-- The literal of two words, the low 32 bits first (R45). -/
def literalOf (lo hi : IWord) : Word := hi ++ lo

/-- The decoder: the first instruction of a list of words, by the LEN of its first word (R45–R47, R57, R62). -/
noncomputable def decode : List IWord → Except Reject Instr
  | [] => .error .short
  | w0 :: rest =>
    match (w0.extractLsb' 0 2).toNat with
    | 0 => settle true (decodeBase w0)
    | 1 =>
      match rest with
      | lo :: hi :: _ =>
        if (w0.extractLsb' 2 6).toNat = 0x02 ∧ w0.extractLsb' 18 14 = 0 then
          .ok (.addiLiteral (SOpd.ofBits (w0.extractLsb' 8 5)) (SOpd.ofBits (w0.extractLsb' 13 5)) (literalOf lo hi))
        else .error .undefined
      | _ => .error .short
    | 2 =>
      match rest with
      | w1 :: w2 :: _ =>
        settle (extCodesOk w1)
          (decodeX (w0.extractLsb' 2 6).toNat (w0.extractLsb' 8 9).toNat (extFields w0 w1 w2))
      | _ => .error .short
    | _ =>
      match rest with
      | w1 :: w2 :: lo :: hi :: _ =>
        settle (extCodesOk w1)
          (decodeXL (w0.extractLsb' 2 6).toNat (w0.extractLsb' 8 9).toNat (extFields w0 w1 w2) (literalOf lo hi))
      | _ => .error .short

/-- The number of words of an instruction by the LEN of its first word (R45). -/
def wordCount (w0 : IWord) : Nat :=
  match (w0.extractLsb' 0 2).toNat with
  | 0 => 1
  | 1 => 3
  | 2 => 3
  | _ => 5

/-! ### The encoder, from the same tables -/

/-- The words of an encoding; an event of the table has none. -/
inductive Words where
  | none
  | one (w : IWord)
  | three (w0 w1 w2 : IWord)
  | five (w0 w1 w2 w3 w4 : IWord)
  deriving DecidableEq, Repr

/-- The words as a list, first word first. -/
def Words.list : Words → List IWord
  | .none => []
  | .one w => [w]
  | .three a b c => [a, b, c]
  | .five a b c d e => [a, b, c, d, e]

/-- Format A at LEN 0b00 (R48). -/
def packA (func : BitVec 9) (b a d : BitVec 5) (major : BitVec 6) : IWord := func ++ b ++ a ++ d ++ major ++ 0#2

/-- Formats I, M and B: a 14-bit immediate above two operand fields (R48). -/
def packI (imm : BitVec 14) (a d : BitVec 5) (major : BitVec 6) (len : BitVec 2) : IWord := imm ++ a ++ d ++ major ++ len

/-- Formats J and C: a 24-bit field above the major (R48). -/
def packJ (disp : BitVec 24) (major : BitVec 6) : IWord := disp ++ major ++ 0#2

/-- Word 0 of the extended form (R51). -/
def packX0 (x : Ext) (func : BitVec 9) (major : BitVec 6) (len : BitVec 2) : IWord :=
  BitVec.ofBool x.z ++ x.oa.bits ++ x.od.bits ++ func ++ major ++ len

/-- Word 1 of the extended form (R51). -/
def packX1 (x : Ext) : IWord :=
  BitVec.ofBool x.rel ++ BitVec.ofBool x.acq ++ x.scp.code ++ roCode x.ro ++ x.et.code ++ BitVec.ofBool x.me
    ++ BitVec.ofNat 5 x.mask.val ++ x.oc.bits ++ x.ob.bits

/-- The extended form (R51). -/
def packX (major : BitVec 6) (func : BitVec 9) (len : BitVec 2) (x : Ext) : Words :=
  .three (packX0 x func major len) (packX1 x) x.imm

/-- The extended form with a literal (R45). -/
def packXL (major : BitVec 6) (func : BitVec 9) (x : Ext) (lit : Word) : Words :=
  .five (packX0 x func major 3) (packX1 x) x.imm (lit.extractLsb' 0 32) (lit.extractLsb' 32 32)

/-- The words of an instruction (R48, R51, R58, R59); an event of the table has no encoding. -/
def encode : Instr → Words
  | .add d a b => .one (packA 0x001 b.bits a.bits d.bits 0x00)
  | .sub d a b => .one (packA 0x002 b.bits a.bits d.bits 0x00)
  | .mul d a b => .one (packA 0x003 b.bits a.bits d.bits 0x00)
  | .mulh d a b => .one (packA 0x004 b.bits a.bits d.bits 0x00)
  | .div d a b => .one (packA 0x005 b.bits a.bits d.bits 0x00)
  | .divu d a b => .one (packA 0x006 b.bits a.bits d.bits 0x00)
  | .rem d a b => .one (packA 0x007 b.bits a.bits d.bits 0x00)
  | .remu d a b => .one (packA 0x008 b.bits a.bits d.bits 0x00)
  | .and d a b => .one (packA 0x009 b.bits a.bits d.bits 0x00)
  | .or d a b => .one (packA 0x00A b.bits a.bits d.bits 0x00)
  | .xor d a b => .one (packA 0x00B b.bits a.bits d.bits 0x00)
  | .andn d a b => .one (packA 0x00C b.bits a.bits d.bits 0x00)
  | .sll d a b => .one (packA 0x00D b.bits a.bits d.bits 0x00)
  | .srl d a b => .one (packA 0x00E b.bits a.bits d.bits 0x00)
  | .sra d a b => .one (packA 0x00F b.bits a.bits d.bits 0x00)
  | .ror d a b => .one (packA 0x010 b.bits a.bits d.bits 0x00)
  | .min d a b => .one (packA 0x011 b.bits a.bits d.bits 0x00)
  | .max d a b => .one (packA 0x012 b.bits a.bits d.bits 0x00)
  | .slt d a b => .one (packA 0x013 b.bits a.bits d.bits 0x00)
  | .sltu d a b => .one (packA 0x014 b.bits a.bits d.bits 0x00)
  | .seq d a b => .one (packA 0x015 b.bits a.bits d.bits 0x00)
  | .sne d a b => .one (packA 0x016 b.bits a.bits d.bits 0x00)
  | .cmovz d a b => .one (packA 0x017 b.bits a.bits d.bits 0x00)
  | .cmovn d a b => .one (packA 0x018 b.bits a.bits d.bits 0x00)
  | .addsat d a b => .one (packA 0x019 b.bits a.bits d.bits 0x00)
  | .popc d a => .one (packA 0x000 0 a.bits d.bits 0x01)
  | .clz d a => .one (packA 0x001 0 a.bits d.bits 0x01)
  | .ctz d a => .one (packA 0x002 0 a.bits d.bits 0x01)
  | .brev d a => .one (packA 0x003 0 a.bits d.bits 0x01)
  | .bswap d a => .one (packA 0x004 0 a.bits d.bits 0x01)
  | .mkm d a b => .one (packA 0x005 b.bits a.bits d.bits 0x01)
  | .fsli d a b c => .one (packA (0b100#3 ++ c) b.bits a.bits d.bits 0x01)
  | .fsri d a b c => .one (packA (0b101#3 ++ c) b.bits a.bits d.bits 0x01)
  | .addi d a imm => .one (packI imm a.bits d.bits 0x02 0)
  | .addiLiteral d a lit => .three (packI 0 a.bits d.bits 0x02 1) (lit.extractLsb' 0 32) (lit.extractLsb' 32 32)
  | .andi d a imm => .one (packI imm a.bits d.bits 0x03 0)
  | .ori d a imm => .one (packI imm a.bits d.bits 0x04 0)
  | .xori d a imm => .one (packI imm a.bits d.bits 0x05 0)
  | .slti d a imm => .one (packI imm a.bits d.bits 0x06 0)
  | .slli d a c => .one (packI (0#6 ++ 0b00#2 ++ c) a.bits d.bits 0x07 0)
  | .srli d a c => .one (packI (0#6 ++ 0b01#2 ++ c) a.bits d.bits 0x07 0)
  | .srai d a c => .one (packI (0#6 ++ 0b10#2 ++ c) a.bits d.bits 0x07 0)
  | .bfx d a p wm1 x => .one (packI (0#1 ++ BitVec.ofBool x ++ wm1 ++ p) a.bits d.bits 0x08 0)
  | .bfi d a p wm1 => .one (packI (0#2 ++ wm1 ++ p) a.bits d.bits 0x09 0)
  | .lpc d page => .one (page ++ d.bits ++ 0x0A#6 ++ 0#2)
  | .jalr d a imm => .one (packI imm a.bits d.bits 0x0B 0)
  | .mfcr d cr => .one (packI (0#2 ++ cr) 0 d.bits 0x0C 0)
  | .mtcr cr a => .one (packI (0#2 ++ cr) a.bits 0 0x0D 0)
  | .vloop k n => .one (packI (n ++ k) 0 0 0x0E 0)
  | .vloopRegister k a => .one (packI (0#9 ++ k) a.bits 0 0x0E 0)
  | .beq a b disp => .one (packI disp b.bits a.bits 0x0F 0)
  | .bne a b disp => .one (packI disp b.bits a.bits 0x10 0)
  | .blt a b disp => .one (packI disp b.bits a.bits 0x11 0)
  | .bge a b disp => .one (packI disp b.bits a.bits 0x12 0)
  | .bltu a b disp => .one (packI disp b.bits a.bits 0x13 0)
  | .bgeu a b disp => .one (packI disp b.bits a.bits 0x14 0)
  | .bany a b disp => .one (packI disp b.bits a.bits 0x15 0)
  | .ball a b disp => .one (packI disp b.bits a.bits 0x16 0)
  | .bnone a b disp => .one (packI disp b.bits a.bits 0x17 0)
  | .j disp => .one (packJ disp 0x18)
  | .jal disp => .one (packJ disp 0x19)
  | .cue pay => .one (packJ pay 0x1A)
  | .ldB d base off => .one (packI off base.bits d.bits 0x1B 0)
  | .ldBz d base off => .one (packI off base.bits d.bits 0x1C 0)
  | .ldH d base off => .one (packI off base.bits d.bits 0x1D 0)
  | .ldHz d base off => .one (packI off base.bits d.bits 0x1E 0)
  | .ldW d base off => .one (packI off base.bits d.bits 0x1F 0)
  | .ldWz d base off => .one (packI off base.bits d.bits 0x20 0)
  | .ldD d base off => .one (packI off base.bits d.bits 0x21 0)
  | .ldInv d base off => .one (packI off base.bits d.bits 0x22 0)
  | .stB d base off => .one (packI off base.bits d.bits 0x23 0)
  | .stH d base off => .one (packI off base.bits d.bits 0x24 0)
  | .stW d base off => .one (packI off base.bits d.bits 0x25 0)
  | .stD d base off => .one (packI off base.bits d.bits 0x26 0)
  | .vld d base off => .one (packI off base d.bits 0x27 0)
  | .vst d base off => .one (packI off base d.bits 0x28 0)
  | .yield => .one (packA 0x000 0 0 0 0x29)
  | .wait d a => .one (packA 0x001 0 a.bits d.bits 0x29)
  | .endAct => .one (packA 0x002 0 0 0 0x29)
  | .trap code => .one (0x003#9 ++ code ++ 0x29#6 ++ 0#2)
  | .upret => .one (packA 0x004 0 0 0 0x29)
  | .wpx a => .one (packA 0x005 0 a.bits 0 0x29)
  | .ifence => .one (packA 0x006 0 0 0 0x29)
  | .vadd t d a b => .one (packA (0x000 + t.code) b.bits a.bits d.bits 0x2E)
  | .vsub t d a b => .one (packA (0x004 + t.code) b.bits a.bits d.bits 0x2E)
  | .vmul t d a b => .one (packA (0x008 + t.code) b.bits a.bits d.bits 0x2E)
  | .vfma t d a b => .one (packA (0x00C + t.code) b.bits a.bits d.bits 0x2E)
  | .vfms t d a b => .one (packA (0x010 + t.code) b.bits a.bits d.bits 0x2E)
  | .vmin t d a b => .one (packA (0x014 + t.code) b.bits a.bits d.bits 0x2E)
  | .vmax t d a b => .one (packA (0x018 + t.code) b.bits a.bits d.bits 0x2E)
  | .vabs t d a => .one (packA (0x01C + t.code) 0 a.bits d.bits 0x2E)
  | .vneg t d a => .one (packA (0x020 + t.code) 0 a.bits d.bits 0x2E)
  | .vaddX d a b => .one (packA 0x000 b.bits a.bits d.bits 0x2F)
  | .vsubX d a b => .one (packA 0x001 b.bits a.bits d.bits 0x2F)
  | .vmulX d a b => .one (packA 0x002 b.bits a.bits d.bits 0x2F)
  | .vdwadd d a b => .one (packA 0x008 b.bits a.bits d.bits 0x2F)
  | .vdwmul d a b => .one (packA 0x009 b.bits a.bits d.bits 0x2F)
  | .vdwfma d a b => .one (packA 0x00A b.bits a.bits d.bits 0x2F)
  | .vdwround d a => .one (packA 0x00B 0 a.bits d.bits 0x2F)
  | .vcsum d a => .one (packA 0x010 0 a.bits d.bits 0x2F)
  | .vcdot d a b => .one (packA 0x011 b.bits a.bits d.bits 0x2F)
  | .vsum t d a => .one (packA (0x000 + t.code) 0 a.bits d.bits 0x30)
  | .vrmax t d a => .one (packA (0x004 + t.code) 0 a.bits d.bits 0x30)
  | .vrmin t d a => .one (packA (0x008 + t.code) 0 a.bits d.bits 0x30)
  | .vscan t d a => .one (packA (0x00C + t.code) 0 a.bits d.bits 0x30)
  | .vgmax t d a g => .one (packA (0x010 + t.code) g a.bits d.bits 0x30)
  | .viadd t d a b => .one (packA (0x000 + t.code) b.bits a.bits d.bits 0x31)
  | .visub t d a b => .one (packA (0x004 + t.code) b.bits a.bits d.bits 0x31)
  | .vimul t d a b => .one (packA (0x008 + t.code) b.bits a.bits d.bits 0x31)
  | .vimin t d a b => .one (packA (0x00C + t.code) b.bits a.bits d.bits 0x31)
  | .vimax t d a b => .one (packA (0x010 + t.code) b.bits a.bits d.bits 0x31)
  | .viand t d a b => .one (packA (0x014 + t.code) b.bits a.bits d.bits 0x31)
  | .vior t d a b => .one (packA (0x018 + t.code) b.bits a.bits d.bits 0x31)
  | .vixor t d a b => .one (packA (0x01C + t.code) b.bits a.bits d.bits 0x31)
  | .visll t d a b => .one (packA (0x020 + t.code) b.bits a.bits d.bits 0x31)
  | .visrl t d a b => .one (packA (0x024 + t.code) b.bits a.bits d.bits 0x31)
  | .vifsl t d a b => .one (packA (0x028 + t.code) b.bits a.bits d.bits 0x31)
  | .vifsr t d a b => .one (packA (0x02C + t.code) b.bits a.bits d.bits 0x31)
  | .veq t d a b => .one (packA (0x000 + t.code) b.bits a.bits d.bits 0x32)
  | .vlt t d a b => .one (packA (0x004 + t.code) b.bits a.bits d.bits 0x32)
  | .vle t d a b => .one (packA (0x008 + t.code) b.bits a.bits d.bits 0x32)
  | .vne t d a b => .one (packA (0x00C + t.code) b.bits a.bits d.bits 0x32)
  | .vuno t d a b => .one (packA (0x010 + t.code) b.bits a.bits d.bits 0x32)
  | .vieq t d a b => .one (packA (0x020 + t.code) b.bits a.bits d.bits 0x32)
  | .vilt t d a b => .one (packA (0x024 + t.code) b.bits a.bits d.bits 0x32)
  | .vcvt d a b => .one (packA 0x000 b.bits a.bits d.bits 0x33)
  | .vcvti d a => .one (packA 0x001 0 a.bits d.bits 0x33)
  | .vcvtf d a => .one (packA 0x002 0 a.bits d.bits 0x33)
  | .vpack d a b => .one (packA 0x003 b.bits a.bits d.bits 0x33)
  | .vrcp d a => .one (packA 0x000 0 a.bits d.bits 0x34)
  | .vrsq d a => .one (packA 0x001 0 a.bits d.bits 0x34)
  | .vexp2 d a => .one (packA 0x002 0 a.bits d.bits 0x34)
  | .vmov d a => .one (packA 0x000 0 a.bits d.bits 0x35)
  | .vbcst t d a => .one (packA (0x004 + t.code) 0 a.bits d.bits 0x35)
  | .vperm t d a b => .one (packA (0x008 + t.code) b.bits a.bits d.bits 0x35)
  | .vins t d a b => .one (packA (0x00C + t.code) b.bits a.bits d.bits 0x35)
  | .vext t d a b => .one (packA (0x010 + t.code) b.bits a.bits d.bits 0x35)
  | .vcomp d a b => .one (packA 0x000 b.bits a.bits d.bits 0x36)
  | .vexpd d a b => .one (packA 0x001 b.bits a.bits d.bits 0x36)
  | .vksort d a => .one (packA 0x002 0 a.bits d.bits 0x36)
  | .vsearch d a b => .one (packA 0x003 b.bits a.bits d.bits 0x36)
  | .vconf d a => .one (packA 0x004 0 a.bits d.bits 0x36)
  | .vpadd e d a b => .one (packA (0x000 + e.code) b.bits a.bits d.bits 0x38)
  | .vpsub e d a b => .one (packA (0x002 + e.code) b.bits a.bits d.bits 0x38)
  | .vpmul e d a b => .one (packA (0x004 + e.code) b.bits a.bits d.bits 0x38)
  | .vpfma e d a b => .one (packA (0x006 + e.code) b.bits a.bits d.bits 0x38)
  | .lclaim d => .one (packA 0x000 0 0 d.bits 0x2D)
  | .lfree => .one (packA 0x001 0 0 0 0x2D)
  | .lpoll d => .one (packA 0x002 0 0 d.bits 0x2D)
  | .rdtime d => .one (packA 0x000 0 0 d.bits 0x3C)
  | .alarm a b => .one (packA 0x001 b.bits a.bits 0 0x3C)
  | .sys d a => .one (packA 0x002 0 a.bits d.bits 0x3C)
  | .sigIrq a b => .one (packA 0x003 b.bits a.bits 0 0x3C)
  | .pfetch a => .one (packA 0x000 0 a.bits 0 0x3D)
  | .pfetchMv a => .one (packA 0x000 1 a.bits 0 0x3D)
  | .evsnap a => .one (packA 0x000 0 a.bits 0 0x3E)
  | .evsnapClear a => .one (packA 0x000 0 a.bits 1 0x3E)
  | .ldxW x => packX 0x2A 0x000 2 x
  | .ldxD x => packX 0x2A 0x001 2 x
  | .stxW x => packX 0x2A 0x002 2 x
  | .stxD x => packX 0x2A 0x003 2 x
  | .amaddW x => packX 0x2A 0x010 2 x
  | .amaddD x => packX 0x2A 0x011 2 x
  | .amminW x => packX 0x2A 0x012 2 x
  | .amminD x => packX 0x2A 0x013 2 x
  | .ammaxW x => packX 0x2A 0x014 2 x
  | .ammaxD x => packX 0x2A 0x015 2 x
  | .amcasW x => packX 0x2A 0x016 2 x
  | .amcasD x => packX 0x2A 0x017 2 x
  | .amandD x => packX 0x2A 0x018 2 x
  | .amorD x => packX 0x2A 0x019 2 x
  | .amxorD x => packX 0x2A 0x01A 2 x
  | .amswapD x => packX 0x2A 0x01B 2 x
  | .amldD x => packX 0x2A 0x01C 2 x
  | .amstD x => packX 0x2A 0x01D 2 x
  | .amfaddW x => packX 0x2A 0x01E 2 x
  | .curtn x => packX 0x2B 0x000 2 x
  | .curtnRel x => packX 0x2B 0x001 2 x
  | .curtnAcq x => packX 0x2B 0x002 2 x
  | .succgo x => packX 0x2B 0x003 2 x
  | .predwait x => packX 0x2B 0x004 2 x
  | .barArr x => packX 0x2B 0x008 2 x
  | .barWait x => packX 0x2B 0x009 2 x
  | .barAdd x => packX 0x2B 0x00A 2 x
  | .ownGive x => packX 0x2B 0x010 2 x
  | .send x => packX 0x2C 0x000 2 x
  | .sendh x => packX 0x2C 0x001 2 x
  | .sendk x => packX 0x2C 0x002 2 x
  | .spawn x => packX 0x2C 0x003 2 x
  | .gainadd x => packX 0x2C 0x004 2 x
  | .resadd x => packX 0x2C 0x005 2 x
  | .gang x => packX 0x2C 0x006 2 x
  | .ungang x => packX 0x2C 0x007 2 x
  | .myid x => packX 0x2C 0x008 2 x
  | .trcAdd x => packX 0x2C 0x009 2 x
  | .trcGet x => packX 0x2C 0x00A 2 x
  | .kmap x => packX 0x2C 0x00B 2 x
  | .defh x => packX 0x2C 0x00C 2 x
  | .vaddExt t x => packX 0x2E (0x000 + t.code) 2 x
  | .vsubExt t x => packX 0x2E (0x004 + t.code) 2 x
  | .vmulExt t x => packX 0x2E (0x008 + t.code) 2 x
  | .vfmaExt t x => packX 0x2E (0x00C + t.code) 2 x
  | .vfmsExt t x => packX 0x2E (0x010 + t.code) 2 x
  | .vminExt t x => packX 0x2E (0x014 + t.code) 2 x
  | .vmaxExt t x => packX 0x2E (0x018 + t.code) 2 x
  | .vabsExt t x => packX 0x2E (0x01C + t.code) 2 x
  | .vnegExt t x => packX 0x2E (0x020 + t.code) 2 x
  | .vaddXExt x => packX 0x2F 0x000 2 x
  | .vsubXExt x => packX 0x2F 0x001 2 x
  | .vmulXExt x => packX 0x2F 0x002 2 x
  | .vdwaddExt x => packX 0x2F 0x008 2 x
  | .vdwmulExt x => packX 0x2F 0x009 2 x
  | .vdwfmaExt x => packX 0x2F 0x00A 2 x
  | .vdwroundExt x => packX 0x2F 0x00B 2 x
  | .vcsumExt x => packX 0x2F 0x010 2 x
  | .vcdotExt x => packX 0x2F 0x011 2 x
  | .vsumExt t x => packX 0x30 (0x000 + t.code) 2 x
  | .vrmaxExt t x => packX 0x30 (0x004 + t.code) 2 x
  | .vrminExt t x => packX 0x30 (0x008 + t.code) 2 x
  | .vscanExt t x => packX 0x30 (0x00C + t.code) 2 x
  | .vgmaxExt t x => packX 0x30 (0x010 + t.code) 2 x
  | .viaddExt t x => packX 0x31 (0x000 + t.code) 2 x
  | .visubExt t x => packX 0x31 (0x004 + t.code) 2 x
  | .vimulExt t x => packX 0x31 (0x008 + t.code) 2 x
  | .viminExt t x => packX 0x31 (0x00C + t.code) 2 x
  | .vimaxExt t x => packX 0x31 (0x010 + t.code) 2 x
  | .viandExt t x => packX 0x31 (0x014 + t.code) 2 x
  | .viorExt t x => packX 0x31 (0x018 + t.code) 2 x
  | .vixorExt t x => packX 0x31 (0x01C + t.code) 2 x
  | .visllExt t x => packX 0x31 (0x020 + t.code) 2 x
  | .visrlExt t x => packX 0x31 (0x024 + t.code) 2 x
  | .vifslExt t x => packX 0x31 (0x028 + t.code) 2 x
  | .vifsrExt t x => packX 0x31 (0x02C + t.code) 2 x
  | .veqExt t x => packX 0x32 (0x000 + t.code) 2 x
  | .vltExt t x => packX 0x32 (0x004 + t.code) 2 x
  | .vleExt t x => packX 0x32 (0x008 + t.code) 2 x
  | .vneExt t x => packX 0x32 (0x00C + t.code) 2 x
  | .vunoExt t x => packX 0x32 (0x010 + t.code) 2 x
  | .vieqExt t x => packX 0x32 (0x020 + t.code) 2 x
  | .viltExt t x => packX 0x32 (0x024 + t.code) 2 x
  | .vsel x => packX 0x32 0x030 2 x
  | .vcvtExt x => packX 0x33 0x000 2 x
  | .vcvtiExt x => packX 0x33 0x001 2 x
  | .vcvtfExt x => packX 0x33 0x002 2 x
  | .vpackExt x => packX 0x33 0x003 2 x
  | .vrcpExt x => packX 0x34 0x000 2 x
  | .vrsqExt x => packX 0x34 0x001 2 x
  | .vexp2Ext x => packX 0x34 0x002 2 x
  | .vmovExt x => packX 0x35 0x000 2 x
  | .vbcstExt t x => packX 0x35 (0x004 + t.code) 2 x
  | .vpermExt t x => packX 0x35 (0x008 + t.code) 2 x
  | .vinsExt t x => packX 0x35 (0x00C + t.code) 2 x
  | .vextExt t x => packX 0x35 (0x010 + t.code) 2 x
  | .vcompExt x => packX 0x36 0x000 2 x
  | .vexpdExt x => packX 0x36 0x001 2 x
  | .vksortExt x => packX 0x36 0x002 2 x
  | .vsearchExt x => packX 0x36 0x003 2 x
  | .vconfExt x => packX 0x36 0x004 2 x
  | .vldx x => packX 0x37 0x000 2 x
  | .vstx x => packX 0x37 0x001 2 x
  | .vlds x => packX 0x37 0x002 2 x
  | .vsts x => packX 0x37 0x003 2 x
  | .vldu x => packX 0x37 0x004 2 x
  | .vstu x => packX 0x37 0x005 2 x
  | .vstm x => packX 0x37 0x006 2 x
  | .vldt x => packX 0x37 0x007 2 x
  | .vstt x => packX 0x37 0x008 2 x
  | .vpaddExt t x => packX 0x38 (0x000 + t.code) 2 x
  | .vpsubExt t x => packX 0x38 (0x002 + t.code) 2 x
  | .vpmulExt t x => packX 0x38 (0x004 + t.code) 2 x
  | .vpfmaExt t x => packX 0x38 (0x006 + t.code) 2 x
  | .tnew x => packX 0x39 0x000 2 x
  | .tfree x => packX 0x39 0x001 2 x
  | .twiden x => packX 0x39 0x002 2 x
  | .tget x => packX 0x39 0x003 2 x
  | .tset x => packX 0x39 0x004 2 x
  | .tfill x => packX 0x39 0x005 2 x
  | .tscale x => packX 0x39 0x006 2 x
  | .tadd x => packX 0x39 0x007 2 x
  | .trowsum x => packX 0x39 0x008 2 x
  | .tcolsum x => packX 0x39 0x009 2 x
  | .trowmax x => packX 0x39 0x00A 2 x
  | .ttrans x => packX 0x39 0x00B 2 x
  | .tconv x => packX 0x39 0x00C 2 x
  | .tcopyin x => packX 0x39 0x00D 2 x
  | .tcopyout x => packX 0x39 0x00E 2 x
  | .tsync x => packX 0x39 0x00F 2 x
  | .tinfo x => packX 0x39 0x010 2 x
  | .mxr x => packX 0x3A 0x000 2 x
  | .mxz x => packX 0x3A 0x001 2 x
  | .mxb x => packX 0x3A 0x002 2 x
  | .mxa x => packX 0x3A 0x003 2 x
  | .mxo x => packX 0x3A 0x004 2 x
  | .mxw x => packX 0x3A 0x005 2 x
  | .xcopyFill x => packX 0x3B 0x000 2 x
  | .xcopyDrain x => packX 0x3B 0x000 2 x
  | .xcopyGather x => packX 0x3B 0x000 2 x
  | .xcopyScatter x => packX 0x3B 0x000 2 x
  | .xwait x => packX 0x3B 0x001 2 x
  | .bxfFill x => packX 0x3B 0x002 2 x
  | .bxfScale x => packX 0x3B 0x002 2 x
  | .bxfAddc x => packX 0x3B 0x002 2 x
  | .bxfConv x => packX 0x3B 0x002 2 x
  | .bxfTrans x => packX 0x3B 0x002 2 x
  | .vbcstLiteral t x lit => packXL 0x35 (0x004 + t.code) x lit
  | .tfillLiteral x lit => packXL 0x39 0x005 x lit
  | .streamDeadlock _ _ => .none
  | .watchdogExpiry _ _ => .none
  | .waitDeadline _ _ => .none
  | .alarmFires _ _ => .none
  | .messageArrival _ => .none
  | .gainUpdateArrival _ => .none
  | .heapPop _ _ => .none
  | .spawnOfferArrival _ => .none
  | .spawnAnswer _ => .none
  | .keyUpdateArrival _ => .none
  | .overflowRegionMove _ _ _ => .none
  | .roundGather _ => .none
  | .stopArrival _ _ => .none
  | .finalGather _ => .none
  | .notify _ _ _ => .none
  | .queueMap _ _ _ => .none
  | .queueUnmap _ _ => .none
  | .launchAccept _ _ _ => .none
  | .bindRecordWrite _ _ _ _ => .none
  | .unbindRequest _ _ => .none
  | .preemption _ _ => .none
  | .agingLimit _ _ => .none
  | .waitLimit _ _ => .none
  | .parkedRebind _ _ _ => .none
  | .dependencyDeadlock _ => .none
  | .kernelFault _ _ => .none
  | .contextResume _ _ => .none
  | .fillBegins _ _ _ => .none
  | .fillCompletes _ _ _ => .none
  | .drainBegins _ _ => .none
  | .drainCompletes _ _ => .none
  | .commandFault _ _ _ => .none
  | .chunkLoaded _ => .none
  | .chunkForward _ => .none
  | .accumulate _ => .none
  | .tensorOperationPerformed _ => .none
  | .formManagerDecision _ _ => .none
  | .completionNotice _ _ _ => .none
  | .moveRequest _ _ => .none
  | .moveComplete _ => .none
  | .moveAbandoned _ => .none
  | .shutterExpiry _ => .none
  | .redirectNotice _ _ => .none
  | .shootdownPage _ _ => .none
  | .shootdownSubpage _ _ => .none
  | .shootdownAsid _ _ => .none
  | .shootdownAll _ => .none
  | .shootdownComplete _ => .none
  | .statusWrite _ => .none
  | .eventCounterWrite _ _ _ => .none
  | .tileTableWrite _ _ => .none
  | .pageFaultSlotWrite _ _ => .none
  | .registerWrite _ _ => .none
  | .sysqWrite _ _ => .none
  | .sysqheadWrite _ _ => .none
  | .sysrtokWrite _ _ _ => .none
  | .errorLogHeaderWrite _ _ => .none
  | .errorLogEntryWrite _ _ _ => .none
  | .injctlWrite _ _ => .none
  | .pwrctlWrite _ _ => .none
  | .powerWindow _ _ _ _ => .none
  | .thermalCap _ _ => .none
  | .flitReceived _ _ _ _ => .none
  | .retrainComplete _ _ => .none
  | .frameSend _ _ _ => .none
  | .frameReceived _ _ _ => .none
  | .endpointWrite _ _ _ => .none
  | .endpointMsi _ _ _ => .none
  | .readCompletion _ _ _ => .none
  | .atomicopCompletion _ _ _ _ => .none
  | .reset _ _ => .none
  | .recoveryImage _ _ => .none
  | .computeDieRelease _ => .none
  | .attestationRequest _ _ => .none
  | .undefinedEncoding => .none
  | .accumulatorZeroed _ => .none
  | .accumulatorConverted _ => .none
  | .linkTrained _ => .none
  | .endpointMemoryRead _ _ _ => .none
  | .temperatureFalls _ => .none

/-- The bytes an instruction occupies (R45). -/
def Instr.bytes (i : Instr) : Nat := 4 * (encode i).list.length

/-! ### The table's numbering of bits -/

/-- The k words of a number whose low 32 bits are the first word. -/
def wordsOf : Nat → Nat → List IWord
  | 0, _ => []
  | k + 1, n => BitVec.ofNat 32 n :: wordsOf k (n / 2 ^ 32)

/-- What the decoder reads from an instruction whose low nbits bits are w and whose other bits, up to the
longest instruction, are zero (bit 0 is the least significant bit of the first word). -/
noncomputable def decodeTableWord (nbits w : Nat) : Option Instr :=
  match decode (wordsOf 5 (w % 2 ^ nbits)) with
  | .ok i => some i
  | .error _ => none

end Sys2Proof
end

