-- ==== Sys2Proof/Machine/Num.lean ====
section
/-! DEFINITION. Number formats, scales and rounding (R74-R101): every value is taken exactly, as a signed dyadic
number, and each rounding happens once, with the events it counts. -/

namespace Sys2Proof.Machine

/-! ### Events -/

/-- A set of the events of one element: bit i stands for the counter EVCi (R26, R101). -/
abbrev Ev := BitVec 16

namespace Ev
/-- EVC0 -/
def inexact : Ev := 0x0001
/-- EVC1 -/
def overflow : Ev := 0x0002
/-- EVC2 -/
def underflow : Ev := 0x0004
/-- EVC3 -/
def nanMade : Ev := 0x0008
/-- EVC4 -/
def pairInexact : Ev := 0x0010
/-- EVC5 -/
def pairOverflow : Ev := 0x0020
/-- EVC6 -/
def divZero : Ev := 0x0040
/-- EVC7 -/
def flushed : Ev := 0x0080
/-- EVC14 -/
def saturated : Ev := 0x4000
end Ev

/-- A bit pattern of some format with the events that producing it raised. -/
structure Out where
  code : Nat
  ev : Ev
  deriving DecidableEq, Repr

/-! ### Exact values -/

/-- What a floating-point code stands for: `fin neg m e` is (−1)^neg × m × 2^e, zero keeping its sign. -/
inductive FVal where
  | nan
  | inf (neg : Bool)
  | fin (neg : Bool) (m : Nat) (e : Int)
  deriving DecidableEq, Repr

/-- How a format uses its largest exponent (R82, R79, R80). -/
inductive Top where
  /-- infinity and NaN, as IEEE 754 has them -/
  | ieee
  /-- E4M3: no infinity, NaN at M = 0b111 -/
  | e4m3
  /-- no infinity and no NaN -/
  | finite
  deriving DecidableEq, Repr

/-- The fields of a floating-point format (R76, R79-R82). -/
structure FpFmt where
  eb : Nat
  mb : Nat
  bias : Nat
  top : Top
  deriving DecidableEq, Repr

def fp32 : FpFmt := ⟨8, 23, 127, .ieee⟩
def bf16 : FpFmt := ⟨8, 7, 127, .ieee⟩
def fp16 : FpFmt := ⟨5, 10, 15, .ieee⟩
def e5m2 : FpFmt := ⟨5, 2, 15, .ieee⟩
def e4m3 : FpFmt := ⟨4, 3, 7, .e4m3⟩
def e3m2 : FpFmt := ⟨3, 2, 3, .finite⟩
def e2m3 : FpFmt := ⟨2, 3, 1, .finite⟩
def e2m1 : FpFmt := ⟨2, 1, 1, .finite⟩

/-- The bits of a code of the format. -/
def FpFmt.width (f : FpFmt) : Nat := 1 + f.eb + f.mb
/-- The sign bit of the format. -/
def FpFmt.signBit (f : FpFmt) : Nat := 2 ^ (f.eb + f.mb)
/-- The exponent of the smallest normal value. -/
def FpFmt.emin (f : FpFmt) : Int := 1 - (f.bias : Int)
/-- The exponent of one unit of the smallest subnormal value. -/
def FpFmt.unit (f : FpFmt) : Int := f.emin - f.mb
/-- The code of the largest finite magnitude (R81). -/
def FpFmt.maxCode (f : FpFmt) : Nat :=
  match f.top with
  | .ieee => (2 ^ f.eb - 1) * 2 ^ f.mb - 1
  | .e4m3 => 2 ^ (f.eb + f.mb) - 2
  | .finite => 2 ^ (f.eb + f.mb) - 1
/-- The code of +infinity in an IEEE-style format (R82). -/
def FpFmt.infCode (f : FpFmt) : Nat := (2 ^ f.eb - 1) * 2 ^ f.mb
/-- The canonical NaN (R82). -/
def FpFmt.nanCode (f : FpFmt) : Nat :=
  match f.top with
  | .ieee => f.infCode + 2 ^ (f.mb - 1)
  | _ => 2 ^ (f.eb + f.mb) - 1
/-- A magnitude code with a sign. -/
def FpFmt.signed (f : FpFmt) (neg : Bool) (mag : Nat) : Nat := if neg then f.signBit + mag else mag

/-- Whether FZ concerns the format: FP32, BF16 and FP16 (R90). -/
def FpFmt.flushes (f : FpFmt) : Bool := f == fp32 || f == bf16 || f == fp16

/-- Decoding a code (R76, R79-R82). -/
def FpFmt.decode (f : FpFmt) (code : Nat) : FVal :=
  let c := code % (2 * f.signBit)
  let neg := c ≥ f.signBit
  let mag := c % f.signBit
  let e := mag / 2 ^ f.mb
  let m := mag % 2 ^ f.mb
  if f.top = .ieee ∧ e = 2 ^ f.eb - 1 then (if m = 0 then .inf neg else .nan)
  else if f.top = .e4m3 ∧ mag = f.signBit - 1 then .nan
  else if e = 0 then .fin neg m f.unit
  else .fin neg (2 ^ f.mb + m) (f.unit + (e - 1 : Nat))

/-- Whether a code is subnormal: exponent field 0 and a nonzero fraction. -/
def FpFmt.subnormal (f : FpFmt) (code : Nat) : Bool :=
  let mag := code % f.signBit
  mag < 2 ^ f.mb && mag != 0

/-- Reading an operand under FZ (R90): a subnormal operand reads as zero of its sign and counts EVC7. -/
def FpFmt.read (f : FpFmt) (fz : Bool) (code : Nat) : FVal × Ev :=
  if fz && f.flushes && f.subnormal code then
    (.fin (code % (2 * f.signBit) ≥ f.signBit) 0 0, Ev.flushed)
  else (f.decode code, 0)

namespace FVal

def isNan : FVal → Bool
  | .nan => true
  | _ => false
def isInf : FVal → Bool
  | .inf _ => true
  | _ => false
def isZero : FVal → Bool
  | .fin _ m _ => m == 0
  | _ => false
/-- The sign; NaN has none and reads as positive. -/
def neg : FVal → Bool
  | .nan => false
  | .inf n => n
  | .fin n _ _ => n
/-- The value with its sign reversed. -/
def negate : FVal → FVal
  | .nan => .nan
  | .inf n => .inf (!n)
  | .fin n m e => .fin (!n) m e
/-- The value without its sign. -/
def abs : FVal → FVal
  | .nan => .nan
  | .inf _ => .inf false
  | .fin _ m e => .fin false m e

/-- The integer with its sign. -/
def signedInt (n : Bool) (m : Nat) : Int := if n then -(m : Int) else m

/-- The exact sum under IEEE 754; `rdn` gives an exact zero sum of opposite signs its sign (R87). -/
def add (rdn : Bool) : FVal → FVal → FVal
  | .nan, _ => .nan
  | _, .nan => .nan
  | .inf a, .inf b => if a = b then .inf a else .nan
  | .inf a, _ => .inf a
  | _, .inf b => .inf b
  | .fin na ma ea, .fin nb mb eb =>
    let e := min ea eb
    let s := signedInt na (ma * 2 ^ (ea - e).toNat) + signedInt nb (mb * 2 ^ (eb - e).toNat)
    if s = 0 then .fin (if na = nb then na else rdn) 0 0 else .fin (s < 0) s.natAbs e

/-- The exact product under IEEE 754. -/
def mul : FVal → FVal → FVal
  | .nan, _ => .nan
  | _, .nan => .nan
  | .inf a, .inf b => .inf (a ^^ b)
  | .inf a, .fin n m _ => if m = 0 then .nan else .inf (a ^^ n)
  | .fin n m _, .inf b => if m = 0 then .nan else .inf (n ^^ b)
  | .fin na ma ea, .fin nb mb eb => .fin (na ^^ nb) (ma * mb) (ea + eb)

/-- Less-than on values neither of which is NaN, with −0 = +0. -/
def lt : FVal → FVal → Bool
  | .nan, _ => false
  | _, .nan => false
  | .inf a, .inf b => a && !b
  | .inf a, .fin .. => a
  | .fin .., .inf b => !b
  | .fin na ma ea, .fin nb mb eb =>
    let e := min ea eb
    signedInt na (ma * 2 ^ (ea - e).toNat) < signedInt nb (mb * 2 ^ (eb - e).toNat)

/-- Equality of values, with −0 = +0 and NaN equal to nothing. -/
def eqv (a b : FVal) : Bool := !a.isNan && !b.isNan && !a.lt b && !b.lt a

/-- The order of R146: −0 below +0. -/
def below (a b : FVal) : Bool := a.lt b || (a.eqv b && a.neg && !b.neg)

end FVal

/-! ### Rounding -/

/-- The number of bits of a number, 0 for 0. -/
def bitLength (m : Nat) : Nat := if m = 0 then 0 else Nat.log2 m + 1

/-- m ÷ 2^k rounded to an integer in a mode (R87). -/
def roundShift (mode : Rm) (neg : Bool) (m k : Nat) : Nat :=
  let q := m / 2 ^ k
  let r := m % 2 ^ k
  let up : Bool :=
    match mode with
    | .rne => 2 * r > 2 ^ k || (2 * r == 2 ^ k && q % 2 == 1)
    | .rtz => false
    | .rup => r != 0 && !neg
    | .rdn => r != 0 && neg
    | .rna => r != 0 && 2 * r ≥ 2 ^ k
  if up then q + 1 else q

/-- m × 2^e rounded to a multiple of 2^u: the multiple, and whether it differs from the value. -/
def roundAt (mode : Rm) (neg : Bool) (m : Nat) (e u : Int) : Nat × Bool :=
  if e ≥ u then (m * 2 ^ (e - u).toNat, false)
  else
    let k := (u - e).toNat
    (roundShift mode neg m k, m % 2 ^ k != 0)

/-- Whether overflow in this mode and sign goes to an infinity rather than to the largest finite value (R88). -/
def overflowsAway (mode : Rm) (neg : Bool) : Bool :=
  match mode with
  | .rne | .rna => true
  | .rtz => false
  | .rup => !neg
  | .rdn => neg

/-- Rounding a nonzero magnitude m × 2^e to a format that has NaN, with the events of R88-R90. `sat` is the
saturate bit, which acts on E5M2 and E4M3 only; `fz` flushes tiny results of FP32, BF16 and FP16. -/
def FpFmt.roundMag (f : FpFmt) (mode : Rm) (fz sat : Bool) (neg : Bool) (m : Nat) (e : Int) : Out :=
  let top : Int := e + bitLength m - 1
  let ue : Int := top - f.mb
  let unb := roundAt mode neg m e ue
  let tiny : Bool := (if unb.1 ≥ 2 ^ (f.mb + 1) then top + 1 else top) < f.emin
  let u : Int := if ue < f.unit then f.unit else ue
  let q := roundAt mode neg m e u
  let code := (u - f.unit).toNat * 2 ^ f.mb + q.1
  if fz && f.flushes && tiny then
    ⟨f.signed neg 0, Ev.flushed ||| Ev.underflow ||| Ev.inexact⟩
  else if code > f.maxCode then
    if overflowsAway mode neg && f.top != .finite && !(sat && (f == e5m2 || f == e4m3)) then
      if f.top = .ieee then ⟨f.signed neg f.infCode, Ev.overflow ||| Ev.inexact⟩
      else ⟨f.nanCode, Ev.overflow ||| Ev.inexact ||| Ev.nanMade⟩
    else ⟨f.signed neg f.maxCode, Ev.overflow ||| Ev.inexact⟩
  else
    ⟨f.signed neg code, if q.2 then (if tiny then Ev.underflow ||| Ev.inexact else Ev.inexact) else 0⟩

/-- Rounding an exact value to an arithmetic format, with its events (R87-R90); a NaN is the canonical one and
counts EVC3 (R83, R101). -/
def FpFmt.round (f : FpFmt) (mode : Rm) (fz sat : Bool) : FVal → Out
  | .nan => ⟨f.nanCode, Ev.nanMade⟩
  | .inf n => if f.top = .ieee then ⟨f.signed n f.infCode, 0⟩ else ⟨f.nanCode, Ev.nanMade⟩
  | .fin n m e => if m = 0 then ⟨f.signed n 0, 0⟩ else f.roundMag mode fz sat n m e

/-- The FP32 value that rounding gives, without its events. -/
def round32 (mode : Rm) (x : FVal) : FVal := fp32.decode (fp32.round mode false false x).code

/-! ### Element formats -/

/-- The floating-point fields of an element format; E2M1X is E2M1 but for its code 0b1000 (R76). -/
def elemFp : Fmt → Option FpFmt
  | .e2m1 => some e2m1 | .e2m1x => some e2m1 | .e2m3 => some e2m3 | .e3m2 => some e3m2 | .e4m3 => some e4m3
  | .e5m2 => some e5m2 | .bf16 => some bf16 | .fp16 => some fp16 | .fp32 => some fp32
  | _ => none

/-- The signed and unsigned integer formats: width and whether two's complement (R76, R78). -/
def elemInt : Fmt → Option (Nat × Bool)
  | .int8 => some (8, true) | .uint8 => some (8, false) | .int4 => some (4, true) | .uint4 => some (4, false)
  | .int2 => some (2, true)
  | _ => none

/-- Bits of an element in storage: a 6-bit element has a byte of its own (R75). -/
def elemStorage : Fmt → Nat
  | .none => 8 | .e2m1 => 4 | .e2m1x => 4 | .e2m3 => 8 | .e3m2 => 8 | .e4m3 => 8 | .e5m2 => 8 | .bf16 => 16 | .fp16 => 16
  | .fp32 => 32 | .int8 => 8 | .uint8 => 8 | .int4 => 4 | .uint4 => 4 | .int2 => 2 | .bin1 => 1

/-- Whether the format takes block scales (R74). -/
def elemScaled : Fmt → Bool
  | .none => false | .bf16 => false | .fp16 => false | .fp32 => false
  | _ => true

/-- An integer as an exact value; zero is +0. -/
def FVal.ofInt (i : Int) : FVal := .fin (i < 0) i.natAbs 0

/-- The integer a code of an integer format stands for. -/
def intOfCode (w : Nat) (signed : Bool) (code : Nat) : Int :=
  let c := code % 2 ^ w
  if signed && c ≥ 2 ^ (w - 1) then (c : Int) - 2 ^ w else c

/-- The exact value of an element code (R76-R82); code 0b1000 of E2M1X is exact(BX) (R77). -/
def elemValue (t : Fmt) (bx : Nat) (code : Nat) : FVal :=
  if t = .e2m1x ∧ code % 16 = 8 then e4m3.decode bx
  else
    match elemFp t, elemInt t with
    | some f, _ => f.decode code
    | none, some (w, sg) => FVal.ofInt (intOfCode w sg code)
    | none, none => FVal.ofInt (if code % 2 = 1 then 1 else -1)

/-- An element read as an operand under FZ (R90). -/
def elemRead (t : Fmt) (fz : Bool) (bx code : Nat) : FVal × Ev :=
  match elemFp t with
  | some f => if t = .e2m1x then (elemValue t bx code, 0) else f.read fz code
  | none => (elemValue t bx code, 0)

/-- A finite value rounded to an integer (R91), and whether it differed. -/
def FVal.toInt (mode : Rm) (neg : Bool) (m : Nat) (e : Int) : Int × Bool :=
  let r := roundAt mode neg m e 0
  (FVal.signedInt neg r.1, r.2)

/-- Conversion to an integer range (the integer column of R91). -/
def convertInt (w : Nat) (signed : Bool) (mode : Rm) (v : FVal) : Out :=
  let lo : Int := if signed then -(2 ^ (w - 1) : Nat) else 0
  let hi : Int := if signed then (2 ^ (w - 1) : Nat) - 1 else (2 ^ w : Nat) - 1
  let enc (i : Int) : Nat := (i % (2 ^ w : Nat)).toNat
  match v with
  | .nan => ⟨0, Ev.saturated⟩
  | .inf n => ⟨enc (if n then lo else hi), Ev.saturated⟩
  | .fin n m e =>
    let r := FVal.toInt mode n m e
    if r.1 < lo then ⟨enc lo, Ev.saturated ||| Ev.inexact⟩
    else if r.1 > hi then ⟨enc hi, Ev.saturated ||| Ev.inexact⟩
    else ⟨enc r.1, if r.2 then Ev.inexact else 0⟩

/-- Conversion to BIN1 (the last column of R91). -/
def convertBin (v : FVal) : Out :=
  match v with
  | .nan => ⟨1, Ev.saturated⟩
  | .inf n => ⟨if n then 0 else 1, 0⟩
  | .fin n m e =>
    let one : Bool := FVal.eqv (.fin n m e) (FVal.ofInt 1) || FVal.eqv (.fin n m e) (FVal.ofInt (-1))
    ⟨if m = 0 || !n then 1 else 0, if one then 0 else Ev.inexact⟩

/-- Conversion of an exact value to an element format under a mode, the saturate bit and FZ (R91, R92). -/
def convert (t : Fmt) (mode : Rm) (fz sat : Bool) (v : FVal) : Out :=
  match elemFp t, elemInt t with
  | some f, _ =>
    let o : Out :=
      match f.top, v with
      | .finite, .nan => ⟨0, Ev.overflow⟩
      | .finite, .inf n => ⟨f.signed n f.maxCode, Ev.overflow⟩
      | .e4m3, .inf n => if sat then ⟨f.signed n f.maxCode, Ev.overflow⟩ else ⟨f.nanCode, Ev.overflow ||| Ev.nanMade⟩
      | .ieee, .inf n => if sat && f == e5m2 then ⟨f.signed n f.maxCode, Ev.overflow⟩ else f.round mode fz sat v
      | _, _ => f.round mode fz sat v
    if t = .e2m1x ∧ o.code = 8 then { o with code := 0 } else o
  | none, some (w, sg) => convertInt w sg mode v
  | none, none => convertBin v

/-! ### Block and tensor scales (R84-R86) -/

/-- A block scale byte under SF: 0 E8M0, 1 E5M2, 2 E4M3 (R84). -/
def scaleValue (sf : Nat) (s : Nat) : FVal :=
  match sf with
  | 0 => if s % 256 = 255 then .nan else .fin false 1 ((s % 256 : Nat) - 127)
  | 1 => e5m2.decode s
  | _ => e4m3.decode s

/-- The element's value times its block scale, exact; an infinite scale makes a nonzero element infinite and a
zero NaN (R85, R86), and leaves a NaN element NaN (DESIGN CHOICE, log 48). -/
def blockScaled (v s : FVal) : FVal := v.mul s

/-- R85: an element under its block scale and the tensor scale, rounded once to FP32, with the events of that
rounding but NaN, which the instruction that writes the element counts (R86). -/
def scaledValue (t : Fmt) (code bx : Nat) (s ts : FVal) : FVal × Ev :=
  let p := (blockScaled (elemValue t bx code) s).mul ts
  let o := fp32.round .rne false false p
  (fp32.decode o.code, o.ev &&& ~~~Ev.nanMade)

/-! ### Exact pairs (R93-R95) -/

/-- Two FP32 codes and the events of making them. -/
structure Pair where
  hi : Nat
  lo : Nat
  ev : Ev
  deriving DecidableEq, Repr

/-- The canonical FP32 NaN. -/
def nan32 : Nat := 0x7FC00000

/-- twosum of two FP32 codes (R93). -/
def twosum (a b : Nat) : Pair :=
  let x := fp32.decode a
  let y := fp32.decode b
  match x.add false y with
  | .nan => ⟨nan32, nan32, Ev.nanMade⟩
  | .inf n => ⟨fp32.signed n fp32.infCode, 0, 0⟩
  | .fin n m e =>
    let hi := (fp32.round .rne false false (.fin n m e)).code
    let h := fp32.decode hi
    if h.isInf then ⟨hi, 0, Ev.pairOverflow⟩
    else
      let lo := (FVal.fin n m e).add false h.negate
      ⟨hi, if lo.isZero then 0 else (fp32.round .rne false false lo).code, 0⟩

/-- twoprod of two FP32 codes (R94). -/
def twoprod (a b : Nat) : Pair :=
  match (fp32.decode a).mul (fp32.decode b) with
  | .nan => ⟨nan32, nan32, Ev.nanMade⟩
  | .inf n => ⟨fp32.signed n fp32.infCode, 0, 0⟩
  | .fin n m e =>
    if m = 0 then ⟨fp32.signed n 0, 0, 0⟩
    else
      let hi := (fp32.round .rne false false (.fin n m e)).code
      let h := fp32.decode hi
      if h.isInf then ⟨hi, 0, Ev.pairOverflow⟩
      else
        let err := (FVal.fin n m e).add false h.negate
        let lo := (fp32.round .rne false false err).code
        let l := fp32.decode lo
        ⟨hi, if l.isZero then 0 else lo, if (l.eqv err) then 0 else Ev.pairInexact⟩

/-- fadd of R150: one RNE addition of FP32 codes, counting nothing. -/
def fadd (a b : Nat) : Nat := (fp32.round .rne false false ((fp32.decode a).add false (fp32.decode b))).code
/-- fmul of R150. -/
def fmul (a b : Nat) : Nat := (fp32.round .rne false false ((fp32.decode a).mul (fp32.decode b))).code
/-- ffma of R150. -/
def ffma (a b c : Nat) : Nat :=
  (fp32.round .rne false false (((fp32.decode a).mul (fp32.decode b)).add false (fp32.decode c))).code
/-- The FP32 code with its sign inverted. -/
def fneg (a : Nat) : Nat := (a + 0x80000000) % 0x100000000

def isInf32 (a : Nat) : Bool := a % 0x80000000 == 0x7F800000
def isNan32 (a : Nat) : Bool := a % 0x80000000 > 0x7F800000

/-! ### Double-word operations (R149-R151) -/

/-- A step of R150 that is infinite ends the algorithm: `.error` carries that infinity and the events so far. -/
abbrev DwStep := Except (Nat × Ev)

/-- A primitive's pair, ending the algorithm when its hi is infinite; only pair-inexact counts (R151). -/
def dwPair (ev : Ev) (p : Pair) : DwStep (Nat × Nat × Ev) :=
  let ev' := ev ||| (p.ev &&& Ev.pairInexact)
  if isInf32 p.hi then .error (p.hi, ev') else .ok (p.hi, p.lo, ev')

/-- A single result, ending the algorithm when it is infinite. -/
def dwOne (ev : Ev) (x : Nat) : DwStep Nat := if isInf32 x then .error (x, ev) else .ok x

/-- dwadd on finite pairs (R150). -/
def dwaddFinite (ah al bh bl : Nat) (ev : Ev) : DwStep (Nat × Nat × Ev) := do
  let (sh, sl, ev) ← dwPair ev (twosum ah bh)
  let (th, tl, ev) ← dwPair ev (twosum al bl)
  let c ← dwOne ev (fadd sl th)
  let (vh, vl, ev) ← dwPair ev (twosum sh c)
  let w ← dwOne ev (fadd tl vl)
  dwPair ev (twosum vh w)

/-- dwmul on finite pairs (R150). -/
def dwmulFinite (ah al bh bl : Nat) (ev : Ev) : DwStep (Nat × Nat × Ev) := do
  let (ph, p1, ev) ← dwPair ev (twoprod ah bh)
  let t0 ← dwOne ev (fmul al bl)
  let t1 ← dwOne ev (ffma ah bl t0)
  let p2 ← dwOne ev (ffma al bh t1)
  let p3 ← dwOne ev (fadd p1 p2)
  dwPair ev (twosum ph p3)

/-- The end of a double-word operation: a step that gave an infinity from finite operands counts EVC5 (R150, R151). -/
def dwEnd : DwStep (Nat × Nat × Ev) → Pair
  | .ok (h, l, ev) => ⟨h, l, ev⟩
  | .error (x, ev) => ⟨x, 0, ev ||| Ev.pairOverflow⟩

/-- R149: with a NaN half the result is NaN; with an infinite half the operation is done once on the single values. -/
def dwSpecial (halves : List Nat) (single : FVal) (finite : DwStep (Nat × Nat × Ev)) : Pair :=
  if halves.any isNan32 then ⟨nan32, nan32, Ev.nanMade⟩
  else if halves.any isInf32 then
    let r := (fp32.round .rne false false single).code
    if isNan32 r then ⟨nan32, nan32, Ev.nanMade⟩ else ⟨r, 0, 0⟩
  else dwEnd finite

/-- A pair taken as one value under IEEE 754 (R149). Where an operation meets an infinite half, the pair of another operand is taken
exactly, so that a sum of finite halves stays finite where rounding to FP32 would make it infinite: R149 names no rounding of
ah + al (DESIGN CHOICE, log 48). -/
def pairValue (h l : Nat) : FVal := (fp32.decode h).add false (fp32.decode l)

def dwadd (ah al bh bl : Nat) : Pair :=
  dwSpecial [ah, al, bh, bl] ((pairValue ah al).add false (pairValue bh bl)) (dwaddFinite ah al bh bl 0)

def dwmul (ah al bh bl : Nat) : Pair :=
  dwSpecial [ah, al, bh, bl] ((pairValue ah al).mul (pairValue bh bl)) (dwmulFinite ah al bh bl 0)

/-- Double-word fma. Of special values ah + al is taken exactly and the operation is one fused a × b + c (DESIGN CHOICE,
log 48; R149 names no rounding between). -/
def dwfma (ah al bh bl ch cl : Nat) : Pair :=
  dwSpecial [ah, al, bh, bl, ch, cl] (((pairValue ah al).mul (pairValue bh bl)).add false (pairValue ch cl))
    (do let (h, l, ev) ← dwmulFinite ah al bh bl 0
        dwaddFinite h l ch cl ev)

/-! ### Approximations (R96-R99, R165) -/

/-- The largest s below 2^n with s × s ≤ x, searched bit by bit below r. -/
def isqrtBits : Nat → Nat → Nat → Nat
  | 0, _, r => r
  | n + 1, x, r => if (r + 2 ^ n) * (r + 2 ^ n) ≤ x then isqrtBits n x (r + 2 ^ n) else isqrtBits n x r

/-- s ^ (2 ^ n). -/
def sqIter : Nat → Nat → Nat
  | 0, s => s
  | n + 1, s => sqIter n (s * s)

/-- The largest s, from r on in steps below 2^n, with s ^ 4096 ≤ x. -/
def root4096Bits : Nat → Nat → Nat → Nat
  | 0, _, r => r
  | n + 1, x, r => if sqIter 12 (r + 2 ^ n) ≤ x then root4096Bits n x (r + 2 ^ n) else root4096Bits n x r

/-- a ÷ b rounded to an integer, ties to even. -/
def rneDiv (a b : Nat) : Nat :=
  let q := a / b
  let r := a % b
  if 2 * r > b || (2 * r == b && q % 2 == 1) then q + 1 else q

/-- Placing sig × 2^e in a format: at or above its overflow limit infinity and EVC1, below its smallest normal zero
and EVC2, otherwise the value, rounded RNE where the format is narrower (finish of R96; R99). -/
def finishApprox (f : FpFmt) (neg : Bool) (sig : Nat) (e : Int) : Out :=
  let top : Int := e + bitLength sig - 1
  let q := roundAt .rne neg sig e (top - f.mb)
  let code := (top - f.mb - f.unit).toNat * 2 ^ f.mb + q.1
  let top' : Int := if q.1 ≥ 2 ^ (f.mb + 1) then top + 1 else top
  if top' < f.emin then ⟨f.signed neg 0, Ev.underflow⟩
  else if code > f.maxCode then ⟨f.signed neg f.infCode, Ev.overflow⟩
  else ⟨f.signed neg code, 0⟩

/-- The 12 fraction bits of a significand m of L bits (R97, R98). -/
def frac12 (m : Nat) : Nat := m * 4096 / 2 ^ (bitLength m - 1) - 4096

/-- vrcp on a lane of format f (R97, R99). On BF16 and FP16 lanes too it counts EVC3 and EVC6 as R97 does: R99's "no other event" is
read of the rounding that takes the place of `finish` (DEDUCED, log 48). -/
def rcp14 (f : FpFmt) (code : Nat) : Out :=
  match f.decode code with
  | .nan => ⟨f.nanCode, Ev.nanMade⟩
  | .inf n => ⟨f.signed n 0, 0⟩
  | .fin n m e =>
    if m = 0 then ⟨f.signed n f.infCode, Ev.divZero⟩
    else
      let ex : Int := e + bitLength m - 1
      let f12 := frac12 m
      if f12 = 0 then finishApprox f n (2 ^ 14) (-14 - ex)
      else finishApprox f n (rneDiv (2 ^ 27) (4096 + f12)) (-15 - ex)

/-- vrsq on a lane of format f (R98, R99). -/
def rsq14 (f : FpFmt) (code : Nat) : Out :=
  match f.decode code with
  | .nan => ⟨f.nanCode, Ev.nanMade⟩
  | .inf true => ⟨f.nanCode, Ev.nanMade⟩
  | .inf false => ⟨0, 0⟩
  | .fin n m e =>
    if m = 0 then ⟨f.signed n f.infCode, Ev.divZero⟩
    else if n then ⟨f.nanCode, Ev.nanMade⟩
    else
      let ex : Int := e + bitLength m - 1
      let odd : Bool := ex % 2 != 0
      let w := (4096 + frac12 m) * (if odd then 2 else 1)
      let half : Int := if odd then (ex - 1) / 2 else ex / 2
      if w = 4096 then finishApprox f false (2 ^ 14) (-14 - half)
      else
        let s := isqrtBits 16 (2 ^ 42 / w) 0
        let d := (2 * s + 1) * (2 * s + 1) * w
        let sig := if d < 2 ^ 44 || (d == 2 ^ 44 && s % 2 == 1) then s + 1 else s
        finishApprox f false sig (-15 - half)

/-- vexp2 on a lane of format f (R165, R99). -/
def exp2_14 (f : FpFmt) (code : Nat) : Out :=
  match f.decode code with
  | .nan => ⟨f.nanCode, Ev.nanMade⟩
  | .inf true => ⟨0, 0⟩
  | .inf false => ⟨f.infCode, 0⟩
  | .fin n m e =>
    let x4096 : Int :=
      if e + 12 ≥ 0 then FVal.signedInt n (m * 2 ^ (e + 12).toNat) else FVal.signedInt n m / (2 ^ (-(e + 12)).toNat : Nat)
    let k : Int := x4096 / 4096
    let f12 := (x4096 % 4096).toNat
    let s := root4096Bits 14 (2 ^ (f12 + 14 * 4096)) (2 ^ 14)
    let sig := if f12 != 0 && sqIter 12 (2 * s + 1) < 2 ^ (f12 + 15 * 4096) then s + 1 else s
    finishApprox f false sig (k - 14)

/-! ### Minimum and maximum (R146) -/

/-- vmin and vmax of two codes: the other operand when one is NaN, the canonical NaN when both are. -/
def pickCode (f : FpFmt) (wantMax : Bool) (a b : Nat) : Out :=
  let x := f.decode a
  let y := f.decode b
  if x.isNan && y.isNan then ⟨f.nanCode, Ev.nanMade⟩
  else if x.isNan then ⟨b, 0⟩
  else if y.isNan then ⟨a, 0⟩
  else if wantMax then ⟨if x.below y then b else a, 0⟩
  else ⟨if y.below x then b else a, 0⟩

end Sys2Proof.Machine
end

