-- ==== Sys2Proof/Machine/State.lean ====
section
/-! DEFINITION. The state of the part as plain data, and the machine right after reset. One core and one context
slot are FOCUSED: they are checked out of the device into `core` and `slot`, and the instructions act on them. -/

namespace Sys2Proof.Machine

/-! ### Outcomes other than a next state -/

/-- What stops the machine. -/
inductive Fault where
  /-- A turn of the agenda names a core or a slot that the blade does not have (R2, R187); raised by `step`
  alone. Safe: no hardware run has such a turn. -/
  | noSuchAgent
  deriving DecidableEq, Repr

/-- What the model gives no meaning. -/
inductive Refusal where
  /-- An instruction that has no meaning in this model yet; raised by the arms of `exec` alone. Safe: nothing is
  said of it. -/
  | notModelled (mnemonic : String)
  deriving DecidableEq, Repr

/-! ### Agents and the history of writes (R267-R275) -/

/-- What performs a command (R321). -/
inductive Engine where
  | matrix
  /-- a copy that names a tile table entry of its core -/
  | copy (entry : Nat)
  /-- a tensor home, on a handle (R316) -/
  | tensor (handle : Word)
  deriving DecidableEq, Repr

/-- A party that issues accesses of its own (R267). -/
inductive Agent where
  /-- the context of a workspace of a core, for one kernel -/
  | ctx (kid core wp : Nat)
  /-- the instruction fetches of that context (R137) -/
  | fetch (kid core wp : Nat)
  /-- an engine command: its kernel and core, the context that issued it, its number, and its engine -/
  | command (kid core ident id : Nat) (engine : Engine)
  /-- the receive-and-accumulate unit of a core -/
  | accumulate (kid core : Nat)
  /-- the tree writing a gather record, at the core that completed the generation -/
  | tree (kid core : Nat)
  /-- an application core of a package -/
  | hart (pkg hart : Nat)
  /-- the stagehands of a package -/
  | stagehand (pkg : Nat)
  /-- an endpoint behind a root port of a package (R416) -/
  | endpoint (pkg : Nat)
  deriving DecidableEq, Repr

/-- A write as coherence order keeps it (R269): where, what the bytes it wrote were (none for a byte inside it that
it did not write), who made it, and to whom it is published. -/
structure WriteRec where
  seq : Nat
  by_ : Agent
  addr : Nat
  old : List (Option Byte)
  /-- the release half that publishes this write alone (R271 item 3) -/
  alone : Option Scope
  /-- the barrier generation that a `bar.wait` must have passed to acquire it (R241, R279): kernel, barrier,
  generation, and whether any waiter's acquire half covers it -/
  bar : Option (Nat × Nat × Nat × Bool)
  /-- the agents for which it counts (R272, R275) -/
  seen : List Agent
  /-- the cores for all of whose agents it counts: those that a tile's buffer has come to since (R260) -/
  cores : List Nat
  /-- it is of a bank transform: the later commands of its context find it (R348) -/
  bank : Bool
  /-- where it lay when it was made; and, oldest first, the places in the order of writes and halves at which its page has moved, with
  the packages whose homes it left (R386) -/
  first : Nat := addr
  was : List (Nat × Nat) := []
  deriving DecidableEq, Repr

/-- A release half in curtain order (R270, R271). -/
structure Release where
  seq : Nat
  by_ : Agent
  scope : Scope
  deriving DecidableEq, Repr

/-! ### The two streams of a context (R28-R33, R37) -/

/-- A boundary of the scalar stream with what the scalar registers, the cue latch and PP are there (R37). -/
structure Boundary where
  pos : Nat
  pc : Word
  w : Vector Word 24
  cue : BitVec 24
  pp : Bool
  deriving DecidableEq, Repr

/-- An entry of q0 or q1 and the boundary before the instruction that pushed it (R29, R37). -/
structure QItem where
  val : Word
  at_ : Boundary
  deriving DecidableEq, Repr

/-- A pop of q2, or of q3, by the scalar stream that a resume position may still undo (R37 item 4). -/
structure Popped where
  pos : Nat
  third : Bool
  val : Word
  deriving DecidableEq, Repr

/-- What a vector instance does, with its lane type or width (R140-R174). -/
inductive VOp where
  | add (t : FType) | sub (t : FType) | mul (t : FType) | fma (t : FType) | fms (t : FType)
  | min (t : FType) | max (t : FType) | abs (t : FType) | neg (t : FType)
  | addX | subX | mulX | dwadd | dwmul | dwfma | dwround | csum | cdot
  | sum (t : FType) | rmax (t : FType) | rmin (t : FType) | scan (t : FType) | gmax (t : FType)
  | iadd (t : WType) | isub (t : WType) | imul (t : WType) | imin (t : WType) | imax (t : WType)
  | iand (t : WType) | ior (t : WType) | ixor (t : WType) | isll (t : WType) | isrl (t : WType)
  | ifsl (t : WType) | ifsr (t : WType)
  | eq (t : FType) | lt (t : FType) | le (t : FType) | ne (t : FType) | uno (t : FType)
  | ieq (t : WType) | ilt (t : WType) | sel
  | cvt | cvti | cvtf | pack | rcp | rsq | exp2
  | mov | bcst (t : WType) | perm (t : WType) | ins (t : WType) | ext (t : WType)
  | comp | expd | ksort | search | conf
  | ld | st | ldx | stx | lds | sts | ldu | stu | stm | ldt | stt
  | padd (e : F8Type) | psub (e : F8Type) | pmul (e : F8Type) | pfma (e : F8Type)
  deriving DecidableEq, Repr

/-- An entry of the vector sequencer (R28): the operation, its fields in the extended form's shape, its words and
address, its cue, the mode and FZ in force at its offload (R23), the scalar values and the mask read then (R30),
and the boundary before its offload (R37). -/
structure Entry where
  op : VOp
  x : Ext
  words : List IWord
  addr : Word
  cue : Option (BitVec 24)
  rm : Rm
  fz : Bool
  sa : Word
  sb : Word
  sc : Word
  mask : BitVec 128
  at_ : Boundary
  /-- the links whose values were read at the offload: their slots become empty when the instruction completes (R247) -/
  slinks : List Dir := []
  deriving DecidableEq, Repr

/-- A closed vloop body that the sequencer runs (R176-R178), with the boundaries before its vloop and after the offload of its
last entry (R37); a reinstated loop lies before the boundary at which its context resumed. -/
structure Loop where
  base : Word
  n : Nat
  body : List Entry
  iter : Nat
  ent : Nat
  at_ : Boundary
  after : Boundary
  deriving DecidableEq, Repr

/-- What stands in the sequencer, oldest first. -/
inductive SeqItem where
  | one (e : Entry)
  | loop (l : Loop)
  deriving DecidableEq, Repr

/-- A vloop whose body still takes entries: how many, and those it has (R177); and whether its offload has found q0 and
q1 empty, where its body names them (R32). -/
structure OpenLoop where
  base : Word
  n : Nat
  left : Nat
  body : List Entry
  at_ : Boundary
  found0 : Bool := false
  found1 : Bool := false
  deriving DecidableEq, Repr

/-- The vector sequencer of a context (R28). -/
structure Sequencer where
  items : List SeqItem
  opened : Option OpenLoop
  deriving DecidableEq, Repr

/-- The states of a context slot (R187). -/
inductive SlotState where
  | unbound | idle | active | waiting | stopped
  deriving DecidableEq, Repr

/-- The tree's combining operations (R240). -/
inductive TreeOp where
  | add | fadd | min | max
  deriving DecidableEq, Repr

/-- A contribution that a context holds for a barrier (R240): for fadd a pair (s, c), otherwise a value. -/
structure Contribution where
  barrier : Nat
  op : TreeOp
  value : Word
  deriving DecidableEq, Repr

/-- A slot's pending alarm (R405). -/
structure Alarm where
  deadline : Word
  header : Word
  deriving DecidableEq, Repr

/-- The AtomicOps that PCIe carries (R389). -/
inductive AtomicReq where
  | fetchAdd | swap | cas
  deriving DecidableEq, Repr

/-- What an instruction that waits for an answer from outside has sent, and the answer once it is there. -/
inductive Request where
  | none
  /-- a spawn offer (R233), and whether a slot took it -/
  | spawn (answer : Option Bool)
  /-- a system call (R407) that waits for a free slot of the queue: its request and the request's address -/
  | sysFor (req : List Word) (addr : Word)
  /-- a system call that has been posted with a token, and its reply once it is there -/
  | sys (token : Word) (reply : Option Word)
  /-- an AtomicOp (R389): its kind, address, bytes and operands; `done` once its completion is here, with the old value
  where it succeeded -/
  | ioAtomic (op : AtomicReq) (addr n : Nat) (b c : Word) (done : Bool) (old : Option Word)
  /-- an arrival held at the tree (R238), and the generation once it joined -/
  | arrival (barrier : Nat) (joined : Option Word)
  deriving DecidableEq, Repr

/-- The device reads (R415) that a stream's present instruction has made: the one outstanding, and the data that has
come. -/
structure IoReads where
  waiting : Option (Nat × Nat)
  got : List (Nat × List Byte)
  deriving DecidableEq, Repr

/-- An engine fault recorded for the next `mxw` (matrix) or `xwait` (R325). -/
structure EngineFault where
  matrix : Bool
  cause : BitVec 16
  addr : Word
  /-- the issuing instruction's address and words (R35) -/
  ipc : Word
  words : List IWord
  deriving DecidableEq, Repr

/-- The part of a context slot that the parallel layer gives it (R187-R223). -/
structure SlotPar where
  /-- the kernel of the slot's context tag: its serial number × 4096 + package × 1024 + tag -/
  kid : Nat
  /-- the context's and the activation's numbers among all of the machine's -/
  ident : Nat
  act : Nat
  /-- the current header (R189) -/
  header : Word
  /-- the issue level of the activation (R222) -/
  level : Nat
  /-- while ACTIVE: it holds its core's issue slot (R42) -/
  issues : Bool
  /-- the wake latch (R132) -/
  wake : Bool
  /-- an unbind has been requested (R220) -/
  unbind : Bool
  alarm : Option Alarm
  contribs : List Contribution
  request : Request
  /-- device reads of the scalar and of the vector stream -/
  io : IoReads
  vio : IoReads
  /-- the cycle at which the watchdog count was last 0 (R43) -/
  wd : Nat
  /-- the `wait` that it waits in: the deadline and the destination (R132) -/
  waiting : Option (Word × SOpd)
  /-- that `wait` was ended by its deadline, or by a wake, and has yet to complete (R132) -/
  timedOut : Bool
  woke : Bool
  /-- what it waits for was found there while it was parked (R286, R363) -/
  met : Bool
  /-- the time base at which the present wait began (R223) -/
  waitFrom : Nat
  /-- it waits in `predwait` (R225, R286) -/
  predWaits : Bool
  /-- the gang shape it waits for (R244) -/
  gangWish : Option Nat
  /-- the resolution of its last page fault was refused: the faulting instruction's address and the faulting address; the
  re-execution raises access violation (R361) -/
  refused : Option (Word × Word)
  faults : List EngineFault
  /-- the scalar stream is blocked at the PC on a queue, a register or a drain wait (R33) -/
  stalled : Bool
  /-- the values taken from links, by their directions, by an instruction that reads one several times, first taken first (R247;
  log 13) -/
  taken : List (Nat × VReg)
  /-- the cause for which it is STOPPED -/
  stopped : BitVec 16
  deriving DecidableEq, Repr

/-- A context slot and the context bound to it (R11-R43, R187). -/
structure Slot where
  st : SlotState
  tag : BitVec 10
  vcore : BitVec 16
  wp : Word
  w : Vector Word 24
  v : Vector VReg 16
  pc : Word
  status : Word
  cue : BitVec 24
  /-- the words of the instruction last fetched, as ENC0-ENC2 save them (R35) -/
  ir : List IWord
  seq : Sequencer
  q0 : List QItem
  q1 : List QItem
  q2 : List Word
  q3 : List Word
  /-- the number of the scalar boundary at which the context stands (R37) -/
  pos : Nat
  pops : List Popped
  par : SlotPar
  deriving DecidableEq, Repr

/-! ### Engines (R321-R348) -/

/-- A layout record (R263): base, format, extents and strides. -/
structure Layout where
  base : Word
  fmt : Fmt
  e0 : Nat
  e1 : Nat
  e2 : Nat
  e3 : Nat
  s0 : Word
  s1 : Word
  s2 : Word
  s3 : Word
  deriving DecidableEq, Repr

/-- What a command reads an operand or its scales from (R330): nothing, a tile (home core and entry), or a tensor. -/
inductive MxSource where
  | none
  | tile (core entry : Nat)
  | tensor (handle : Word)
  deriving DecidableEq, Repr

/-- A matrix command's work (R336-R338, R331). -/
inductive MxOp where
  | zero (entry m n : Nat)
  | loadB (src scales : MxSource) (org : Word) (cue : BitVec 24) (ts : Word) (n k : Nat) (acq : Option Scope)
      (fromNorth forward : Bool)
  | streamA (src scales : MxSource) (org : Word) (cue : BitVec 24) (ts : Word) (k : Nat) (acq : Option Scope)
      (fromWest forward : Bool) (entry m n : Nat)
  | convert (entry m n dst : Nat) (et : Fmt) (rm : Rm) (clear : Bool) (rel : Option Scope)
  /-- the end of the claim, once the commands before it have completed (R331) -/
  | release
  deriving DecidableEq, Repr

/-- A queued command's origin: its number, its context and activation, the context as an agent, the issuing
instruction's address and words, and whether it is to be discarded at its turn (R325). -/
structure Origin where
  id : Nat
  ident : Nat
  act : Nat
  kid : Nat
  tag : BitVec 10
  slot : Nat
  by_ : Agent
  /-- the place of its issue in the order of writes and halves -/
  issued : Nat
  ipc : Word
  words : List IWord
  dead : Bool
  deriving DecidableEq, Repr

/-- A matrix command in a core's queue, and the number of configurations that its unit had taken when it was issued. -/
structure MxCmd where
  from_ : Origin
  op : MxOp
  epoch : Nat
  deriving DecidableEq, Repr

/-- A B chunk (R330, R331): its cue, codes, scale entries, tensor scale, n and k; none where an index names no
element; and the macro rows, one for each k, that are stored with a parity error (R266, R332). -/
structure Chunk where
  cue : BitVec 24
  codes : List (Option Nat)
  scales : List (Option Nat)
  ts : Word
  n : Nat
  k : Nat
  bad : List Nat
  deriving DecidableEq, Repr

/-- A stream of A rows: its cue, codes, scale entries, tensor scale, k and row count. -/
structure AStream where
  cue : BitVec 24
  codes : List (Option Nat)
  scales : List (Option Nat)
  ts : Word
  k : Nat
  rows : Nat
  deriving DecidableEq, Repr

/-- The matrix unit of a core (R327): its claim, its configuration and the number of configurations so far, the accumulator
binding and the last `mxb` cue as commands have been issued, the current chunk with the number of configurations that its
`mxb` knew, the queue, and what waits to be forwarded south and east. -/
structure MxUnit where
  claim : Option Nat
  cfg : BitVec 5
  acc : Option (Nat × Nat × Nat)
  lastCue : Option (BitVec 24)
  epoch : Nat
  chunk : Option Chunk
  chunkEpoch : Nat
  queue : List MxCmd
  southward : List Chunk
  eastward : List AStream
  deriving DecidableEq, Repr

/-- The mode of a copy (R340). -/
inductive XMode where
  | fill (l : Layout)
  | drain (l : Layout)
  | gather (handle list : Word) (n : Nat)
  | scatter (handle list : Word) (n : Nat)
  deriving DecidableEq, Repr

/-- One of the tiles of a copy: home core and entry, whether its move has begun, and whether its bytes have been moved, by
which it is done. -/
structure XTarget where
  core : Nat
  entry : Nat
  begun : Bool
  moved : Bool
  deriving DecidableEq, Repr

/-- A copy command in a core's queue (R340-R344): the tile entry it names, its targets, the bytes of its tile stream and the
bits of the last of them past its end, the attached barrier with the bytes still in its count, and the stream once it has
been moved from memory. -/
structure XCmd where
  from_ : Origin
  mode : XMode
  entry : Nat
  targets : List XTarget
  len : Nat
  spare : Nat
  acq : Option Scope
  rel : Option Scope
  barrier : Option Nat
  left : Nat
  stream : Option (List Byte)
  deriving DecidableEq, Repr

/-! ### Tensors (R294-R318) -/

/-- The states of a handle (R307). -/
inductive TensorState where
  | ready | reforming | freed
  deriving DecidableEq, Repr

/-- A tensor: its handle and serial number, address space, creating core, scope, rank − 1, format, dimensions, the
repertoire in effect, the bits of the pending change with the contexts that asked for them, whether the form manager's
change is pending, its form, and its state. -/
structure Tensor where
  handle : Word
  serial : Nat
  asid : BitVec 12
  creator : Nat
  scope : Scope
  rank : Nat
  fmt : Fmt
  d0 : Nat
  d1 : Nat
  d2 : Nat
  d3 : Nat
  rep : BitVec 16
  pending : BitVec 16
  askers : List Agent
  reform : Bool
  /-- the form that the form manager has chosen for its change, where it has -/
  want : Option Nat
  /-- the form code (R300) -/
  form : Word
  st : TensorState
  deriving DecidableEq, Repr

/-- An accepted tensor operation's work (R312-R316). -/
inductive TWork where
  | set (i : Nat) (code : Nat)
  | fill (code : Nat)
  | scale (factor : Word) (rm : Rm) (sat : Bool)
  | add (b : Word) (rm : Rm) (sat : Bool)
  | rowSum (rm : Rm) (sat : Bool)
  | colSum (rm : Rm) (sat : Bool)
  | rowMax (rm : Rm) (sat : Bool)
  | trans
  | conv (rm : Rm) (sat : Bool)
  | copyIn (l : Layout) (acq rel : Option Scope)
  | copyOut (l : Layout) (acq rel : Option Scope)
  | free
  /-- an engine command's use of the handle, performed with the command, and whether it writes elements -/
  | engine (id : Nat) (writes : Bool)
  deriving DecidableEq, Repr

/-- An accepted tensor operation: where it came from, its core, the handle it acts on (the destination, or the only
one), its source, the handles that were REFORMING when it arrived, and those of them that it still waits on. -/
structure TOp where
  from_ : Origin
  core : Nat
  dst : Word
  src : Word
  queued : List Word
  waits : List Word
  work : TWork
  deriving DecidableEq, Repr

/-! ### Cores -/

/-- A message (R190): its header and P1-P7. -/
structure Message where
  header : Word
  p : Vector Word 7
  deriving DecidableEq, Repr

/-- A message in a mailbox heap (R192-R196): its arrival stamp, whether it is in the overflow region, the time base at
its insertion, by how many levels waiting has raised it (R222), and an error in its stored form in the overflow region: the
array instance, the address, and whether the code can only detect it (R266, R367). -/
structure HeapMsg where
  stamp : Nat
  msg : Message
  overflow : Bool
  since : Nat
  raised : Nat
  spoilt : Option (ArrayId × Word × Bool) := none
  deriving DecidableEq, Repr

/-- What a core keeps for a kernel (R188, R199-R201), with the region registers and IRQWIN that go with its binds there
(R265, R409). -/
structure KernelCore where
  kid : Nat
  /-- activations ended -/
  ended : Nat
  /-- activations ended at the last round -/
  endedAtRound : Nat
  s : BitVec 32
  c : BitVec 32
  h : BitVec 32
  l : BitVec 32
  stopSeen : Bool
  rgn : Vector Word 4 := Vector.replicate 4 0
  irqwin : Word := 0
  /-- a context of the kernel has been bound on the core (R256) -/
  bound : Bool := false
  deriving DecidableEq, Repr

/-- A loop body in a core's loop save region (R421): marked with the WP, with whether it goes with SEQ or with the
upcall record, and with the base; K is its length. -/
structure SavedBody where
  wp : Nat
  withSeq : Bool
  base : Word
  body : List Entry
  deriving DecidableEq, Repr

/-- A translation a TLB holds (R382). -/
structure TlbEntry where
  asid : BitVec 12
  /-- the first virtual address of the page -/
  page : Nat
  /-- a 1 KiB sub-page, not a 2 MiB page -/
  small : Bool
  /-- the physical address of the frame -/
  frame : Nat
  r : Bool
  w : Bool
  x : Bool
  deriving DecidableEq, Repr

/-- A core (R187): its other context slots and everything the contexts of the core share. -/
structure Core where
  /-- the slots that are not checked out, by number; a slot not listed is as at reset -/
  slots : List (Nat × Slot)
  /-- the slot table: a bind record for each slot (R219) -/
  binds : Vector Word 16
  evc : Vector (BitVec 32) 16
  wdlim : Word
  tte : Vector Word 64
  /-- the context tag that owns each tile table entry, 0 for a free one (R256) -/
  tteTag : Vector (BitVec 10) 64
  rgn : Vector Word 4
  pfvec : Word
  pfe : Vector Word 16
  /-- the context that took each page-fault slot (R360) -/
  pfeWho : Vector Nat 16
  /-- the first address of the page on which each page-fault slot's fault fell, and its address space (R382) -/
  pfePage : Vector Nat 16
  pfeAsid : Vector (BitVec 12) 16
  aspace : Word
  irqwin : Word
  /-- the inbound link slots N, E, S, W (R211) -/
  links : Vector (Option VReg) 4
  /-- the slot that holds the link claim (R212) -/
  claim : Option Nat
  /-- the slot that was given the issue slot last (R222) -/
  lastIssued : Option Nat
  /-- the kernel that a bind came to last (R222) -/
  lastBound : Nat
  heap : List HeapMsg
  stamp : Nat
  kernels : List KernelCore
  saves : List SavedBody
  /-- the parked contexts, each as its slot was (R187) -/
  parked : List Slot
  tlb : List TlbEntry
  mx : MxUnit
  /-- the copy engine's queue of this core -/
  xq : List XCmd
  deriving DecidableEq, Repr

/-! ### Kernels, traffic, barriers -/

/-- An arrival at a barrier (R238, R241). -/
structure Arrival where
  vcore : Nat
  core : Nat
  slot : Nat
  members : Nat
  gather : Option Nat
  clear : Bool
  contrib : Option (TreeOp × Word)
  evc : Option (Vector (BitVec 32) 16)
  /-- the number of the context that made it -/
  ident : Nat
  deriving DecidableEq, Repr

/-- A barrier in the sum-combining tree (R237): C, the open generation's arrivals, those of the next generation,
those held beyond it, the pending count, its combining operation, as the last generation that fixed one left it, and the
last result. -/
structure Barrier where
  done : BitVec 32
  open_ : List Arrival
  next : List Arrival
  held : List Arrival
  pending : Nat
  op : TreeOp
  last : Word
  deriving DecidableEq, Repr

/-- The receive-and-accumulate operations (R207). -/
inductive BinOp where
  | add | fadd | min | max | or
  deriving DecidableEq, Repr

/-- A key map (R234). -/
structure KeyMap where
  rows : Nat
  cols : Nat
  row0 : Nat
  col0 : Nat
  boff : Nat
  op : BinOp
  bins : Nat
  deriving DecidableEq, Repr

/-- An accepted kernel (R183, R219). -/
structure Kernel where
  kid : Nat
  /-- the addresses of the user queue descriptor and of the launch queue slot it came by -/
  desc : Nat
  slotAddr : Nat
  /-- the launch record's sixteen words (R71) -/
  record : List Word
  bands : List Band
  handlers : List Word
  tiles : List (Nat × Nat × Nat)
  aspace : Word
  dflt : Option Nat
  barriers : List (Nat × Barrier)
  kmaps : List (Nat × KeyMap)
  succgo : Nat
  rounds : Nat
  hi : BitVec 32
  lo : BitVec 32
  /-- its first messages have been created (R219, R224) -/
  started : Bool
  /-- the kernel that its PRED names (R224) -/
  pred : Option Nat
  /-- that item is pending: no kernel yet -/
  predPending : Bool
  stopping : Bool
  tolMet : Bool
  /-- END of R202 once it has ended, and the fault's cause -/
  ended : Option Nat
  cause : BitVec 16
  drop : Nat
  /-- the removed messages with their virtual cores, oldest first (R202, R203) -/
  removed : List (Nat × Message)
  /-- the place of its acceptance in the order of writes and halves (R422), and the packages that `sys` joined then (R401) -/
  accepted : Nat
  joined : List Nat
  deriving DecidableEq, Repr

/-- Traffic in flight (R192, R228, R201): the kernel, the sending core and context, the target core, and what travels. -/
inductive Flight where
  | message (kid srcCore ident dst : Nat) (msg : Message)
  | gain (kid srcCore ident dst : Nat) (key : BitVec 16) (delta : BitVec 32)
  | offer (kid srcCore ident dst : Nat) (pc : Word) (args : List Word) (header : Word) (level : Nat)
  | answer (kid srcCore core ident : Nat) (took : Bool)
  | keyUpdate (kid srcCore dst bin boff : Nat) (op : BinOp) (value : Word) (barrier : Option Nat)
  | stop (kid core : Nat)
  deriving DecidableEq, Repr

/-- A gang (R208): its members as (core, slot), the leader first; those still to execute the leader's current
instruction, its words and its address, and the leader's PC after it. -/
structure Gang where
  members : List (Nat × Nat)
  pending : List (Nat × Nat)
  words : List IWord
  base : Word
  next : Word
  /-- it disbands once every member has executed the current instruction (R210) -/
  dissolve : Bool
  deriving DecidableEq, Repr

/-- Bits stored flipped (R266, R370): the array instance, the key of the 8-byte word over 8, and whether the code can
only detect them. -/
structure Flip where
  array : ArrayId
  word : Nat
  fatal : Bool
  deriving DecidableEq, Repr

/-- The atomic memory operations of an application core (RV64A): what is written, from the old value and the operand. -/
inductive HartOp where
  | swap (x : Word) | add (x : Word) | and (x : Word) | or (x : Word) | xor (x : Word)
  | min (x : Word) | max (x : Word) | minu (x : Word) | maxu (x : Word)
  /-- compare and swap (and a store-conditional that succeeds): the expected and the new value -/
  | cas (expected x : Word)
  deriving DecidableEq, Repr

/-- Where an application core stands in the one order of the application cores' accesses (R281): the package and hart; the place
before which its next load is not, by its fences and acquiring atomics; the latest places of its loads and of its stores so far; and
the places of its loads and atomics, oldest first, by which later loads may depend on them. -/
structure HartOrder where
  pkg : Nat
  hart : Nat
  floor : Nat
  reads : Nat
  writes : Nat
  loads : List Nat := []
  deriving DecidableEq, Repr

/-- What a scalar load read while vector loads offloaded before it were pending: the context, the load's position, its
bytes, and the number of the first write that was later than what it returned. Those vector loads return nothing later
(R31, R275). Or the acquire half of a scoped load that went before them (R271): they return no write that follows, in the order of its
agent, a release half after that place. -/
structure Ceiling where
  by_ : Agent
  pos : Nat
  key : Nat
  n : Nat
  below : Nat
  half : Bool := false
  deriving DecidableEq, Repr

/-- The register that a load whose value is to come writes: a scalar one, from a number of bytes with or without their sign,
or a vector one. -/
inductive LateDst where
  | scalar (n : Fin 24) (bytes : Nat) (signed : Bool)
  | vector (n : Fin 16)
  deriving DecidableEq, Repr

/-- How a load reads (R117, R121, R264, R274). -/
inductive LoadMode where
  | plain
  | scoped (x : Scope)
  | invariant
  /-- through a tile in READY -/
  | tile
  deriving DecidableEq, Repr

/-- A load that has issued and whose value is to come (R273; log 7): the context slot, the position of its issue, its accesses
(the key of each one's first byte, and the byte of the register at each of its bytes), how it reads, the register it writes, and
what it would have read when it issued. -/
structure LateLoad where
  core : Nat
  slot : Nat
  pos : Nat
  parts : List (Nat × List (Option Nat))
  mode : LoadMode
  dst : LateDst
  val : VReg
  deriving DecidableEq, Repr

/-- A stretch of addresses of a package's endpoints that the IOMMU translates: base, size, the physical address of the base, and
whether it may be read and written (R415). -/
structure IommuMap where
  base : Nat
  size : Nat
  frame : Nat
  r : Bool
  w : Bool
  deriving DecidableEq, Repr

/-- What a package's IOMMU does with the accesses of its endpoints (R415; log 12): lets none through, lets each through at its
own address, or translates. -/
inductive Iommu where
  | off | bare
  | maps (l : List IommuMap)
  deriving DecidableEq, Repr

/-- Who moves next (log 1). -/
inductive Turn where
  /-- a context slot issues its next instruction -/
  | issue (core slot : Nat)
  /-- a context's sequencer runs one instance -/
  | vector (core slot : Nat)
  /-- an event of another agent -/
  | event (i : Instr)
  /-- an application core's plain store (R281) -/
  | hartStore (pkg hart addr : Nat) (data : List Byte)
  /-- an application core's plain load, and the numbers of its loads and atomics, from its first, on which its address depends (R281) -/
  | hartLoad (pkg hart addr n : Nat) (deps : List Nat)
  /-- an application core's atomic memory operation on n bytes, with its `aq` and `rl` bits (R281) -/
  | hartAtomic (pkg hart addr n : Nat) (op : HartOp) (aq rl : Bool)
  /-- an application core's fence: the accesses that it orders before it, reads and writes, and after it (R281) -/
  | hartFence (pkg hart : Nat) (pr pw sr sw : Bool)
  /-- an application core's claim of a pending interrupt identity (R409, R410) -/
  | hartClaim (pkg hart ident : Nat)
  /-- a context slot issues its next instruction, a plain load, whose value is to come later (R273; log 7) -/
  | issueLate (core slot : Nat)
  /-- a context's sequencer runs one instance, a vector load, whose value is to come later (R273; log 7) -/
  | vectorLate (core slot : Nat)
  /-- the value of one of such loads of a context slot comes -/
  | land (core slot i : Nat)
  /-- stored bits of an array change by themselves (R266) -/
  | upset (f : Flip)
  /-- stored bits of a message in a core's overflow region change: the array instance, the address, and whether the code can
  only detect it (R266, R367) -/
  | spoil (core stamp : Nat) (array : ArrayId) (addr : Word) (fatal : Bool)
  /-- the operating system marks a device window as an AtomicOp completer, or takes the mark away (R389) -/
  | atomicWindow (pkg base size : Nat) (on : Bool)
  /-- AtomicOp requests of a root port, by the I/O block of its windows, are enabled or disabled (R389) -/
  | atomicPort (pkg port : Nat) (on : Bool)
  /-- the operating system sets up a package's IOMMU (R415) -/
  | iommu (pkg : Nat) (st : Iommu)
  /-- an address space ends: the control dies free its handles (R295) -/
  | spaceEnd (asid : BitVec 12)
  /-- the stagehands of a package bring the cursor and ALLOW of a mapped user queue up to date (R215) -/
  | queueRefresh (pkg hq : Nat)
  deriving DecidableEq, Repr

/-- The states of a page home (R385). -/
inductive PageState where
  | resident | migrating (dst : Nat) | shuttered (until_ : Nat)
  deriving DecidableEq, Repr

/-- A request that a page home has queued (R385): one that its agent makes again until it is its turn, or a write that the
queue holds. -/
inductive PageReq where
  /-- of the scalar stream of a context slot, at a boundary -/
  | slot (core slot pos : Nat)
  /-- of the vector stream of a context slot: the boundary of its oldest item, the iteration and the body entry -/
  | inst (core slot pos iter ent : Nat)
  /-- of a command, by its number -/
  | command (id : Nat)
  /-- of the tree for the gather record of a barrier's generation: the kernel, the barrier, the generations done before -/
  | tree (kid bar : Nat) (done : BitVec 32)
  /-- a write -/
  | write (by_ : Agent) (addr : Nat) (data : List Byte) (alone : Option Scope)
  /-- a read of n bytes by an application core or an endpoint, and the place before which an application core's is not -/
  | read (by_ : Agent) (addr n floor : Nat)
  /-- an atomic memory operation of an application core on n bytes, and whether it acquires -/
  | update (by_ : Agent) (addr n : Nat) (op : HartOp) (aq : Bool)
  /-- a notify of a user queue that is not mapped, which its SHADOW keeps (R221): the package, the hardware queue slot, the value -/
  | notify (pkg hq : Nat) (value : Word)
  deriving DecidableEq, Repr

/-- A page that has been asked to move: the address of its leaf entry, its frame, whether it is a 1 KiB sub-page, its state, when
its moves began, and the requests that it has queued, in arrival order. -/
structure PageHome where
  pte : Nat
  frame : Nat
  small : Bool
  st : PageState
  moves : List Nat
  queue : List PageReq
  deriving DecidableEq, Repr

/-- A frame that a page has left: whether a 1 KiB sub-page's, and the frame to which it moved (R387). -/
structure Redirect where
  frame : Nat
  small : Bool
  dest : Nat
  deriving DecidableEq, Repr

/-- A stop report (R364), with the kernel it concerns. -/
structure StopReport where
  kid : Nat
  /-- the context tag; 0 for an agent without one -/
  tag : BitVec 10
  core : Nat
  /-- 0xF for an agent that is no context -/
  slot : Nat
  cause : BitVec 16
  orig : BitVec 16
  wp : Word
  pc : Word
  addr : Word
  logref : Word
  time : Nat
  deriving DecidableEq, Repr

/-- The events that the stagehands' event queue holds (R218). -/
inductive StageEvent where
  | stop (r : StopReport)
  | unbound (core slot : Nat) (parked : Bool)
  | bindRefused (core slot : Nat)
  | ended (kid : Nat)
  /-- a resolution request (R359, R381): the core, its page-fault slot (none for a command), the address -/
  | pageFault (core : Nat) (pfe : Option Nat) (addr : Word)
  deriving DecidableEq, Repr

/-! ### The control die (R392) -/

/-- A hardware queue slot's user queue (R216, R217, R221): the descriptor's address, whether the queue is mapped still,
the largest notify that the stagehands have seen, and the next item they take. -/
structure HwQueue where
  desc : Nat
  mapped : Bool
  seen : Nat
  next : Nat
  deriving DecidableEq, Repr

/-- A requested shootdown (R412): KIND, ASID, and SDVA as it stood. -/
structure Shootdown where
  kind : Nat
  asid : BitVec 12
  va : Word
  deriving DecidableEq, Repr

/-- An array instance's error log and injection registers (R369, R370): the header word and eight entries of ADDR,
the word with KIND, and TIME. -/
structure ErrorLog where
  header : Word
  entries : Vector (Word × Word × Word) 8
  injAdr : Word
  injCtl : Word
  deriving DecidableEq, Repr

/-- One direction of a link at one of its ends: the history, oldest byte first, the table with its valid bits, and
P (R398). -/
structure Coder where
  hist : List Byte
  table : Vector (Option Word) 64
  next : Nat
  deriving DecidableEq, Repr

/-- The state of a link at a port (R395, R401). -/
inductive LinkState where
  | untrained | up | retraining | down
  deriving DecidableEq, Repr

/-- A Delstod port (R394-R399): what it sent last and expects next, consecutive replays, corrupt blocks and retrains,
the flit and the frame it must send again, and its compressor and expander. -/
structure Port where
  st : LinkState
  sendSeq : Nat
  recvSeq : Nat
  replays : Nat
  corrupt : Nat
  retrains : Nat
  /-- flits acknowledged, and the sequence number of one it has asked to be replayed -/
  acked : Nat
  replayOf : Option Nat
  /-- frames sent: header and payload, oldest first -/
  sent : List (BitVec 32 × List Byte)
  /-- the bytes of its frames that no flit has carried yet, and those of good flits that are no frame yet -/
  out : List Byte
  stream : List Byte
  /-- the blocks that it has sent and that have not been delivered, and those that it must send again, each oldest first -/
  flying : List (List Byte)
  resend : List (List Byte)
  /-- the bytes that the expander has delivered since the last read of them -/
  delivered : List Byte
  compressor : Coder
  expander : Coder
  deriving DecidableEq, Repr

/-- A package's control die. -/
structure Ctl where
  queues : List (Nat × HwQueue)
  /-- for each level the hardware queue slot that was served last (R217) -/
  served : Vector Nat 4
  sysq : Word
  sysqIrq : Word
  sysqHead : Word
  sysqTail : Word
  sysRval : Vector Word 8
  /-- the tokens of the unanswered requests (R408) -/
  tokens : List Word
  sdva : Word
  sdDone : BitVec 32
  shootdowns : List Shootdown
  movcfg : Word
  fwdcfg : Word
  pwrctl : Word
  pwrstat : Word
  /-- the thermal cap in force, in watts (R420) -/
  thermal : Option Nat
  /-- pending interrupt identities: hart and identity (R409) -/
  pendingIrq : List (Nat × Nat)
  /-- error logs by array kind × 65,536 + instance (R414) -/
  logs : List (Nat × ErrorLog)
  ports : List (Nat × Port)
  /-- posted writes to device windows, oldest first: where each lies, and its bytes, those that it does not write left out (R175) -/
  posted : List (Nat × List (Option Byte))
  /-- device windows that the operating system has marked as AtomicOp completers: base and size; and the root ports, by the
  I/O block of their windows, that have AtomicOp requests enabled (R389, R391) -/
  atomicWindows : List (Nat × Nat)
  atomicPorts : List Nat
  iommu : Iommu
  /-- the measurement registers (R419) -/
  mr : Vector (BitVec 384) 8
  /-- images that have run, the first failing check of an image, and whether the compute dies are released (R417) -/
  booted : List Nat
  failed : Option Nat
  /-- the images of the last reset that the boot ROM has not come to yet (R417) -/
  images : List BootImage
  entry : Word
  released : Bool
  /-- the attestation reports returned: report and signature (R419) -/
  reports : List (List Byte × List Byte)
  deriving DecidableEq, Repr

/-! ### The whole part -/

/-- The state. -/
structure State where
  /-- the focused core and slot -/
  coreId : Nat
  slotId : Nat
  slot : Slot
  core : Core
  /-- the other cores, by number: (package × 8 + die) × 576 + row × 24 + column; one not listed is as at reset -/
  cores : List (Nat × Core)
  clusterTlb : List (Nat × List TlbEntry)
  kernels : List (Nat × Kernel)
  flight : List Flight
  gangs : List Gang
  pages : List PageHome
  /-- frames that a page has left, the newest first: an access through a stale translation to one is redirected (R387) -/
  redirects : List Redirect
  /-- the control dies, by package -/
  ctls : List (Nat × Ctl)
  events : List StageEvent
  flips : List Flip
  /-- the resolution requests that are out: the cluster, the address space and the first address of the page (R382) -/
  resolving : List (Nat × BitVec 12 × Nat)
  tensors : List Tensor
  /-- the handle values that have been issued (R294) -/
  handles : List Word
  /-- tensor operations accepted and not yet performed, in order of acceptance -/
  tops : List TOp
  /-- memory and every scratchpad, in one canonical list (log 3) -/
  mem : List Host.Cell
  /-- the writes and release halves so far, oldest first, and the number of the next -/
  hist : List WriteRec
  releases : List Release
  seq : Nat
  /-- the latest generation for which a `bar.wait` of a context has returned 1: the context, barrier, generation (R279) -/
  passed : List (Agent × Nat × Nat)
  /-- what scalar loads have read while vector loads before them were pending (R31) -/
  ceilings : List Ceiling
  /-- loads that have issued and whose values are to come, oldest first (log 7) -/
  late : List LateLoad
  /-- what the application cores have read, newest first: package, hart, address, bytes (R281) -/
  hartReads : List (Nat × Nat × Nat × List Byte)
  /-- where the application cores stand in the order of their accesses (R281) -/
  hartOrder : List HartOrder
  /-- the 100 MHz time base (R402) -/
  timeBase : Nat
  /-- the clusters that the grades of the blade's parts disable (R2, R184): die × 36 + the cluster's number on its die;
  no step changes it -/
  disabled : List Nat
  /-- MODEL'S OWN: arithmetic-clock cycles passed (log 5) -/
  cycle : Nat
  /-- MODEL'S OWN: how many free choices have been made -/
  free : Nat
  /-- MODEL'S OWN: numbers given to kernels, contexts, activations, commands and tensors so far -/
  ids : Nat
  /-- MODEL'S OWN: who moves next (log 1) -/
  agenda : List Turn
  /-- MODEL'S OWN: vector instances run only when the scalar stream waits or the agenda says so (log 6) -/
  lag : Bool
  deriving DecidableEq, Repr

/-! ### Reset -/

/-- The parallel part of a slot at reset. -/
def SlotPar.reset : SlotPar where
  kid := 0
  ident := 0
  act := 0
  header := 0
  level := 0
  issues := false
  wake := false
  unbind := false
  alarm := none
  contribs := []
  request := .none
  io := { waiting := none, got := [] }
  vio := { waiting := none, got := [] }
  wd := 0
  waiting := none
  timedOut := false
  woke := false
  met := false
  waitFrom := 0
  predWaits := false
  gangWish := none
  refused := none
  faults := []
  stalled := false
  taken := []
  stopped := 0

/-- A context slot at reset: UNBOUND; its registers are 0 (DESIGN CHOICE, log 2: the spec gives none). -/
def Slot.reset : Slot where
  st := .unbound
  tag := 0
  vcore := 0
  wp := 0
  w := Vector.replicate 24 0
  v := Vector.replicate 16 0
  pc := 0
  status := 0
  cue := 0
  ir := []
  seq := { items := [], opened := none }
  q0 := []
  q1 := []
  q2 := []
  q3 := []
  pos := 0
  pops := []
  par := SlotPar.reset

/-- A core's cluster position: 4 × (row mod 4) + (column mod 4) (R255). -/
def clusterPos (core : Nat) : Nat := 4 * ((core % 576) / 24 % 4) + (core % 576) % 24 % 4

/-- A tile table entry at reset: EMPTY, HELD, HCORE its own position, HENT its own number (R255). -/
def tteReset (core n : Nat) : Word := BitVec.ofNat 64 (2 ^ 59 + clusterPos core * 2 ^ 54 + n * 2 ^ 48)

/-- A matrix unit at reset: no claim, no binding, no chunk, nothing queued. -/
def MxUnit.reset : MxUnit where
  claim := none
  cfg := 0
  acc := none
  lastCue := none
  epoch := 0
  chunk := none
  chunkEpoch := 0
  queue := []
  southward := []
  eastward := []

/-- A core at reset. EVCs are 0 (DESIGN CHOICE, log 2); WDLIM.LOG2 is 24 (R25). -/
def Core.reset (core : Nat) : Core where
  slots := []
  binds := Vector.replicate 16 0
  evc := Vector.replicate 16 0
  wdlim := 24
  tte := Vector.ofFn fun n => tteReset core n.val
  tteTag := Vector.replicate 64 0
  rgn := Vector.replicate 4 0
  pfvec := 0
  pfe := Vector.replicate 16 0
  pfeWho := Vector.replicate 16 0
  pfePage := Vector.replicate 16 0
  pfeAsid := Vector.replicate 16 0
  aspace := 0
  irqwin := 0
  links := Vector.replicate 4 none
  claim := none
  lastIssued := none
  lastBound := 0
  heap := []
  stamp := 0
  kernels := []
  saves := []
  parked := []
  tlb := []
  mx := MxUnit.reset
  xq := []

/-- An error log at reset: empty; the log's own reset is a DESIGN CHOICE (log 2). -/
def ErrorLog.reset : ErrorLog where
  header := 0
  entries := Vector.replicate 8 (0, 0, 0)
  injAdr := 0
  injCtl := 0

/-- A coder after a reset (R398). -/
def Coder.reset : Coder where
  hist := []
  table := Vector.replicate 64 none
  next := 0

/-- A port at reset: untrained (R401). -/
def Port.reset : Port where
  st := .untrained
  sendSeq := 0
  recvSeq := 0
  replays := 0
  corrupt := 0
  retrains := 0
  acked := 0
  replayOf := none
  sent := []
  out := []
  stream := []
  flying := []
  resend := []
  delivered := []
  compressor := Coder.reset
  expander := Coder.reset

/-- A control die at reset: SYSQHEAD and SYSQTAIL 1 (R407), MOVCFG T 0x18_6A00, W 0x1_86A0, N 4 (R413), PWRCTL.CAP
3,200, PWRSTAT.DUTY 100 (R420), the measurement registers zero but MR0 (R419). -/
def Ctl.reset : Ctl where
  queues := []
  served := Vector.replicate 4 255
  sysq := 0
  sysqIrq := 0
  sysqHead := 1
  sysqTail := 1
  sysRval := Vector.replicate 8 0
  tokens := []
  sdva := 0
  sdDone := 0
  shootdowns := []
  movcfg := BitVec.ofNat 64 (0x186A00 * 2 ^ 36 + 0x186A0 * 2 ^ 8 + 4)
  fwdcfg := 0
  pwrctl := BitVec.ofNat 64 (3200 * 2 ^ 16)
  pwrstat := BitVec.ofNat 64 (100 * 2 ^ 16)
  thermal := none
  pendingIrq := []
  logs := []
  ports := []
  posted := []
  atomicWindows := []
  atomicPorts := []
  iommu := .off
  mr := Vector.ofFn fun i => if i.val = 0 then Config.romVersion else 0
  booted := []
  failed := none
  images := []
  entry := 0
  released := false
  reports := []

/-- The machine right after reset: core 0, slot 0 focused, nothing bound, nothing in memory. -/
def State.reset : State where
  coreId := 0
  slotId := 0
  slot := Slot.reset
  core := Core.reset 0
  cores := []
  clusterTlb := []
  kernels := []
  flight := []
  gangs := []
  pages := []
  redirects := []
  ctls := []
  events := []
  flips := []
  resolving := []
  tensors := []
  handles := []
  tops := []
  mem := []
  hist := []
  releases := []
  seq := 0
  passed := []
  ceilings := []
  late := []
  hartReads := []
  hartOrder := []
  timeBase := 0
  disabled := []
  cycle := 0
  free := 0
  ids := 0
  agenda := []
  lag := false

end Sys2Proof.Machine
end

