-- ==== Sys2Proof/Machine/Flags.lean ====
section
/-! DEFINITION. STATUS and its fields (R22, R23), and the event counters (R26, R101). -/

namespace Sys2Proof.Machine

/-- A word with the n bits from bit lo replaced by the low bits of a value. -/
def setField (x : Word) (lo n : Nat) (v : Nat) : Word :=
  let mask : Word := BitVec.ofNat 64 ((2 ^ n - 1) * 2 ^ lo)
  (x &&& ~~~mask) ||| BitVec.ofNat 64 (v % 2 ^ n * 2 ^ lo)

/-- The n bits of a word from bit lo, as a number. -/
def field (x : Word) (lo n : Nat) : Nat := (x.toNat / 2 ^ lo) % 2 ^ n

/-- A word with one bit set or cleared. -/
def setBit (x : Word) (i : Nat) (b : Bool) : Word :=
  if b then x ||| BitVec.ofNat 64 (2 ^ i) else x &&& ~~~(BitVec.ofNat 64 (2 ^ i))

/-! ### STATUS (R22) -/

/-- STATUS.UP, bit 15. -/
def up (st : Word) : Bool := st.getLsbD 15
/-- STATUS.PP, bit 14. -/
def pp (st : Word) : Bool := st.getLsbD 14
/-- STATUS.FZ, bit 9. -/
def fz (st : Word) : Bool := st.getLsbD 9
/-- STATUS.RM, bits [12:10]. -/
def rmField (st : Word) : Nat := field st 10 3
/-- STATUS.AEN, bits [38:32]. -/
def aen (st : Word) : BitVec 7 := st.extractLsb' 32 7

/-- The rounding mode of a 3-bit code; the reserved codes cannot be stored (R23). -/
def rmOfCode (c : Nat) : Rm :=
  match c with
  | 0 => .rne
  | 1 => .rtz
  | 2 => .rup
  | 3 => .rdn
  | _ => .rna

/-- Whether a code of RM is reserved (R23). -/
def rmReserved (c : Nat) : Bool := c ≥ 5

/-- STATUS.RM as a mode. -/
def rmOf (st : Word) : Rm := rmOfCode (rmField st)

/-- The writable fields of STATUS: AEN, RM and FZ (R22, R23). -/
def statusWritable : Word := 0x0000007F00001E00

/-- Every field of STATUS that exists: those and UP, PP (R22). -/
def statusFields : Word := 0x0000007F0000DE00

/-- A move to STATUS: AEN, RM and FZ change, UP and PP stay (R23). -/
def statusMoved (old new : Word) : Word := (old &&& 0xC000) ||| (new &&& statusWritable)

/-! ### Event counters (R26) -/

/-- A counter after n more events, saturating at 0xFFFF_FFFF. -/
def satAdd (c : BitVec 32) (n : Nat) : BitVec 32 :=
  if c.toNat + n ≥ 2 ^ 32 then 0xFFFFFFFF else BitVec.ofNat 32 (c.toNat + n)

/-- The counters with n added to counter i. -/
def countIn (e : Vector (BitVec 32) 16) (i n : Nat) : Vector (BitVec 32) 16 :=
  if h : i < 16 then e.set i (satAdd e[i] n) h else e

/-- n events of counter i on the focused core. -/
def State.count (s : State) (i n : Nat) : State :=
  if n = 0 then s else { s with core := { s.core with evc := countIn s.core.evc i n } }

/-- How many of a list of event sets hold event i. -/
def evCount (evs : List Ev) (i : Nat) : Nat := (evs.filter fun e => e.getLsbD i).length

/-- The counters after an instance whose elements raised these events (R26: per element). -/
def countAll (e : Vector (BitVec 32) 16) (evs : List Ev) : Vector (BitVec 32) 16 :=
  Vector.ofFn fun i => let n := evCount evs i.val; if n = 0 then e[i] else satAdd e[i] n

/-- Counting the events of an instance on the focused core. -/
def State.countEvents (s : State) (evs : List Ev) : State :=
  if evs.all (· == 0) then s else { s with core := { s.core with evc := countAll s.core.evc evs } }

/-- The trap-enable bits, in the order of AEN, that a set of events meets: NaN produced, division by zero, overflow,
underflow, inexact, pair-inexact, pair-overflow (R22, R35 EVENT). -/
def evTraps (e : Ev) : BitVec 7 :=
  let b (i : Nat) : BitVec 1 := BitVec.ofBool (e.getLsbD i)
  b 5 ++ b 4 ++ b 0 ++ b 2 ++ b 1 ++ b 6 ++ b 3

/-- The enabled events among those an instance raised; none while UP is 1 (R39). -/
def raisedEvents (st : Word) (evs : List Ev) : BitVec 7 :=
  if up st then 0 else evTraps (evs.foldl (· ||| ·) 0) &&& aen st

end Sys2Proof.Machine
end

