-- ==== Sys2Proof/Machine/Mem.lean ====
section
/-! DEFINITION. The bytes: one canonical list holds every package's memory, every core's scratchpad and the elements of every tensor. The key of a
byte of memory is its physical address, below 2^52 (R376); the key of a scratchpad byte is 2^52 + core × 2^19 + its
offset (R251). -/

namespace Sys2Proof.Machine

/-- What a byte that nothing has written reads as (DESIGN CHOICE, log 3). -/
def Memory.blank : Byte := 0

/-- The canonical form: addresses strictly rise, and no entry holds the unlisted value. -/
def Memory.wf : List Host.Cell → Bool
  | [] => true
  | [c] => c.2 != Memory.blank
  | c :: d :: m => c.2 != Memory.blank && c.1 < d.1 && Memory.wf (d :: m)

/-- The byte at a key. -/
def Memory.get : List Host.Cell → Nat → Byte
  | [], _ => Memory.blank
  | c :: m, a => if c.1 = a then c.2 else if a < c.1 then Memory.blank else Memory.get m a

/-- Writing one byte, keeping the canonical form. -/
def Memory.set : List Host.Cell → Nat → Byte → List Host.Cell
  | [], a, b => if b = Memory.blank then [] else [(a, b)]
  | c :: m, a, b =>
    if c.1 = a then (if b = Memory.blank then m else (a, b) :: m)
    else if a < c.1 then (if b = Memory.blank then c :: m else (a, b) :: c :: m)
    else c :: Memory.set m a b

/-- n bytes from a key on. -/
def Memory.bytes (m : List Host.Cell) (a : Nat) : Nat → List Byte
  | 0 => []
  | n + 1 => Memory.get m a :: Memory.bytes m (a + 1) n

/-- Writing bytes from a key on. -/
def Memory.setBytes (m : List Host.Cell) (a : Nat) : List Byte → List Host.Cell
  | [] => m
  | b :: bs => Memory.setBytes (Memory.set m a b) (a + 1) bs

/-- Writing the bytes of a block that are given. -/
def Memory.setSome (m : List Host.Cell) (a : Nat) : List (Option Byte) → List Host.Cell
  | [] => m
  | none :: bs => Memory.setSome m (a + 1) bs
  | some b :: bs => Memory.setSome (Memory.set m a b) (a + 1) bs

/-- What the bytes of a block that are given were. -/
def Memory.oldSome (m : List Host.Cell) (a : Nat) : List (Option Byte) → List (Option Byte)
  | [] => []
  | none :: bs => none :: Memory.oldSome m (a + 1) bs
  | some _ :: bs => some (Memory.get m a) :: Memory.oldSome m (a + 1) bs

/-- Little-endian bytes as a number (R4). -/
def ofBytes : List Byte → Nat
  | [] => 0
  | b :: bs => b.toNat + 256 * ofBytes bs

/-- The n little-endian bytes of a number (R4). -/
def toBytes : Nat → Nat → List Byte
  | 0, _ => []
  | n + 1, x => BitVec.ofNat 8 x :: toBytes n (x / 256)

/-- The 64-bit word that 8 bytes make. -/
def wordOf (bs : List Byte) : Word := BitVec.ofNat 64 (ofBytes bs)

/-- The first scratchpad key. -/
def spBase : Nat := 2 ^ 52

/-- The key of a scratchpad byte of a core (R251). -/
def spKey (core off : Nat) : Nat := spBase + core * 2 ^ 19 + off

/-- The first key of a tensor's elements, which lie outside every address space (R294). -/
def tensorBase : Nat := 2 ^ 104

/-- The key of a tensor's element: 4 bytes for each, by its serial number, the die of its home (R295) and its number in
index order, i0 fastest. -/
def tensorKey (serial die i : Nat) : Nat := tensorBase * (serial * 32 + die + 1) + 4 * i

/-- The die, counted over the blade, of the home of a tensor's element. -/
def tensorDie (key : Nat) : Nat := (key / tensorBase - 1) % 32

/-- Whether a key names a tensor's element. -/
def isTensor (key : Nat) : Bool := key ≥ tensorBase

/-- Whether a key names scratchpad. -/
def isScratch (key : Nat) : Bool := spBase ≤ key && key < tensorBase

/-- The core of a scratchpad key. -/
def keyCore (key : Nat) : Nat := (key - spBase) / 2 ^ 19

/-- The scratchpad offset of a key. -/
def keyOffset (key : Nat) : Nat := (key - spBase) % 2 ^ 19

end Sys2Proof.Machine
end

