-- ==== Sys2Proof/Machine/Cores.lean ====
section
/-! DEFINITION. How an instruction may end, and reaching what the state holds: cores, slots, kernels, control dies, by
their numbers; a kernel's record and grid (R71, R184, R185). -/

namespace Sys2Proof.Machine

/-! ### Ways an instruction ends other than by completing -/

/-- A trap: its cause, ADDR and EVENT of the record (R35), the kind of a page fault (R358), and for a machine check the
array instance with the log that takes it, and the ADDR of the log's entry where it is another (R353, R364, R369). -/
structure Trap where
  cause : BitVec 16
  addr : Word := 0
  event : BitVec 7 := 0
  kind : Nat := 0
  array : Option ArrayId := none
  logAddr : Option Word := none
  deriving DecidableEq, Repr

/-- What blocks a stream. -/
inductive Block where
  /-- q0-q3 (R29) -/
  | queue (k : Nat)
  /-- the scalar stream waits for the vector stream: R30, R31, R32 -/
  | drain
  /-- the sequencer is full (R28) -/
  | full
  /-- anything else: a link, a tile, an engine queue, another agent's answer -/
  | other
  deriving DecidableEq, Repr

/-- How an instruction or instance stops without completing. -/
inductive Stop where
  | trap (t : Trap)
  | block (b : Block)
  /-- it stays where it is, and this much happens to the state as it stood (a read sent, a count of stall cycles) -/
  | hold (f : State → State)
  /-- a wait-class instruction waits, in this state (R42, R187) -/
  | wait (s : State)

/-- What may stop. -/
abbrev Act := Except Stop

/-- A trap with an address. -/
def trapAt (cause : BitVec 16) (addr : Word) : Act α := .error (.trap { cause := cause, addr := addr })
/-- A trap without one. -/
def trapOf (cause : BitVec 16) : Act α := .error (.trap { cause := cause })
/-- Blocking. -/
def blockOn (b : Block) : Act α := .error (.block b)

/-- Requiring a condition, else a trap. -/
def require (c : Bool) (cause : BitVec 16) (addr : Word := 0) : Act Unit := if c then .ok () else trapAt cause addr

/-! ### Keyed lists -/

/-- The value of a key, or a default. -/
def assocGet (d : α) (k : Nat) : List (Nat × α) → α
  | [] => d
  | (j, v) :: l => if j = k then v else assocGet d k l

/-- A keyed list in rising order with the key set. -/
def assocSet (k : Nat) (v : α) : List (Nat × α) → List (Nat × α)
  | [] => [(k, v)]
  | (j, u) :: l => if j = k then (k, v) :: l else if k < j then (k, v) :: (j, u) :: l else (j, u) :: assocSet k v l

/-- A keyed list without the key. -/
def assocErase (k : Nat) (l : List (Nat × α)) : List (Nat × α) := l.filter fun p => p.1 != k

/-! ### Cores, slots, kernels -/

/-- A core of the blade. -/
def State.coreAt (s : State) (c : Nat) : Core := if c = s.coreId then s.core else assocGet (Core.reset c) c s.cores

/-- Replacing a core. -/
def State.setCore (s : State) (c : Nat) (k : Core) : State :=
  if c = s.coreId then { s with core := k } else { s with cores := assocSet c k s.cores }

/-- A context slot. -/
def State.slotAt (s : State) (c k : Nat) : Slot :=
  if c = s.coreId ∧ k = s.slotId then s.slot else assocGet Slot.reset k (s.coreAt c).slots

/-- Replacing a context slot. -/
def State.setSlot (s : State) (c k : Nat) (x : Slot) : State :=
  if c = s.coreId ∧ k = s.slotId then { s with slot := x }
  else let co := s.coreAt c; s.setCore c { co with slots := assocSet k x co.slots }

/-- Checking the focused core and slot in and another pair out. -/
def State.focusOn (s : State) (c k : Nat) : State :=
  if c = s.coreId ∧ k = s.slotId then s
  else
    let here : Core := { s.core with slots := assocSet s.slotId s.slot s.core.slots }
    if c = s.coreId then
      { s with slotId := k, slot := assocGet Slot.reset k here.slots, core := { here with slots := assocErase k here.slots } }
    else
      let there := assocGet (Core.reset c) c s.cores
      { s with
        coreId := c
        slotId := k
        slot := assocGet Slot.reset k there.slots
        core := { there with slots := assocErase k there.slots }
        cores := assocErase c (assocSet s.coreId here s.cores) }

/-- What happens at a slot of a core, after which the focus is where it was. -/
def State.within (s : State) (c k : Nat) (f : State → State) : State := (f (s.focusOn c k)).focusOn s.coreId s.slotId

/-- A kernel by its number. -/
def State.kernelAt (s : State) (kid : Nat) : Option Kernel := (s.kernels.find? fun k => k.1 == kid).map (·.2)

/-- Replacing a kernel. -/
def State.setKernel (s : State) (k : Kernel) : State := { s with kernels := assocSet k.kid k s.kernels }

/-- Changing a kernel, if there is one of that number. -/
def State.mapKernel (s : State) (kid : Nat) (f : Kernel → Kernel) : State :=
  match s.kernelAt kid with
  | some k => s.setKernel (f k)
  | none => s

/-- The focused context as an agent (R267). -/
def State.self (s : State) : Agent := .ctx s.slot.par.kid s.coreId s.slot.wp.toNat
/-- Its fetches as an agent (R137). -/
def State.selfFetch (s : State) : Agent := .fetch s.slot.par.kid s.coreId s.slot.wp.toNat

/-- The workspaces bound on a core, as scratchpad offsets (R14). -/
def State.boundWs (s : State) (c : Nat) : List Nat :=
  ((List.range 16).map (s.slotAt c)).filterMap fun x => if x.st = .unbound then none else some x.wp.toNat

/-- Whether n scratchpad bytes of a core fall in a bound register image (R14). -/
def State.inImage (s : State) (c off n : Nat) : Bool :=
  (s.boundWs c).any fun wp => off < wp + 0x900 && wp < off + n

/-- Replacing the focused slot's parallel part. -/
def State.setPar (s : State) (p : SlotPar) : State := { s with slot := { s.slot with par := p } }

/-- The stagehands' event queue takes an event (R218). -/
def State.emit (s : State) (e : StageEvent) : State := { s with events := s.events ++ [e] }

/-- A free choice taken. -/
def State.drew (s : State) : State := { s with free := s.free + 1 }

/-- The control die of a package. -/
def State.ctlAt (s : State) (p : Nat) : Ctl := assocGet Ctl.reset p s.ctls
/-- Replacing a control die. -/
def State.setCtl (s : State) (p : Nat) (c : Ctl) : State :=
  { s with ctls := if p < Config.packages then assocSet p c s.ctls else s.ctls }

/-! ### A kernel's record and grid (R71, R184, R185) -/

/-- A word of the launch record. -/
def Kernel.recWord (k : Kernel) (off : Nat) : Word := k.record.getD (off / 8) 0
/-- COLS and ROWS (R71). -/
def Kernel.cols (k : Kernel) : Nat := field (k.recWord 0x10) 0 16
def Kernel.rows (k : Kernel) : Nat := field (k.recWord 0x10) 16 16
/-- The grid size G. -/
def Kernel.grid (k : Kernel) : Nat := k.rows * k.cols
/-- CTX, contexts per core. -/
def Kernel.ctx (k : Kernel) : Nat := field (k.recWord 0x10) 32 5
/-- ENTRY. -/
def Kernel.entry (k : Kernel) : Word := k.recWord 0x08
/-- TOL and GAIN, FP32 codes. -/
def Kernel.tol (k : Kernel) : Nat := field (k.recWord 0x20) 32 32
def Kernel.gain (k : Kernel) : Nat := field (k.recWord 0x20) 0 32
/-- PRED, PRIO, TARGET, DRAIN, WAIT. -/
def Kernel.predAt (k : Kernel) : Nat := (k.recWord 0x60).toNat
def Kernel.prio (k : Kernel) : Nat := field (k.recWord 0x68) 32 2
def Kernel.target (k : Kernel) : Nat := field (k.recWord 0x68) 0 32
def Kernel.drainAt (k : Kernel) : Nat := (k.recWord 0x70).toNat
def Kernel.waitLimit (k : Kernel) : Nat := if k.recWord 0x78 = 0 then Config.defaultWaitLimit else (k.recWord 0x78).toNat
/-- The package and the context tag. -/
def Kernel.pkg (k : Kernel) : Nat := k.kid / 1024 % 4
def Kernel.tag (k : Kernel) : Nat := k.kid % 1024

/-- The band of a virtual row. -/
def Kernel.bandOf (k : Kernel) (row : Nat) : Option Band := k.bands.find? fun b => b.row0 ≤ row && row < b.row0 + b.height

/-- The core of a virtual core index (R185). -/
def Kernel.coreOf (k : Kernel) (v : Nat) : Option Nat :=
  if k.cols = 0 || v ≥ k.grid then none
  else (k.bandOf (v / k.cols)).map fun b =>
    (k.pkg * 8 + b.die) * 576 + (b.y0 + (v / k.cols - b.row0)) * 24 + b.x0 + v % k.cols

/-- The virtual core index of a core. -/
def Kernel.vcoreOf (k : Kernel) (core : Nat) : Option Nat := (List.range k.grid).find? fun v => k.coreOf v == some core

end Sys2Proof.Machine
end

