-- ==== Sys2Proof/Machine/Order.lean ====
section
/-! DEFINITION. Phase consistency (R267-R282, R422): who may see which write. Every write is performed at once, in one
coherence order that the history keeps; a load may return any write that R273 leaves it, by a free choice (log 7). -/

namespace Sys2Proof.Machine

/-! ### Positions and domains (R267, R268, R183) -/

/-- The package of a core. -/
def pkgOf (core : Nat) : Nat := core / 4608
/-- The die of a core, counted over the blade. -/
def dieOf (core : Nat) : Nat := core / 576
/-- The physical row and column of a core on its die. -/
def rowOf (core : Nat) : Nat := core % 576 / 24
def colOf (core : Nat) : Nat := core % 576 % 24
/-- The cluster of a core on its die, row-major (R262). -/
def clusterOf (core : Nat) : Nat := rowOf core / 4 * 6 + colOf core / 4
/-- The cluster of a core, counted over the blade. -/
def clusterId (core : Nat) : Nat := dieOf core * 36 + clusterOf core

/-- The core at which an agent stands; none for the control die's agents and the endpoints. -/
def Agent.core : Agent → Option Nat
  | .ctx _ c _ => some c
  | .fetch _ c _ => some c
  | .command _ c _ _ _ => some c
  | .accumulate _ c => some c
  | .tree _ c => some c
  | .hart _ _ => none
  | .stagehand _ => none
  | .endpoint _ => none

/-- The package of an agent. -/
def Agent.pkg : Agent → Nat
  | .ctx _ c _ => pkgOf c
  | .fetch _ c _ => pkgOf c
  | .command _ c _ _ _ => pkgOf c
  | .accumulate _ c => pkgOf c
  | .tree _ c => pkgOf c
  | .hart p _ => p
  | .stagehand p => p
  | .endpoint p => p

/-- The kernel of an agent, 0 for none. -/
def Agent.kid : Agent → Nat
  | .ctx k _ _ => k
  | .fetch k _ _ => k
  | .command k _ _ _ _ => k
  | .accumulate k _ => k
  | .tree k _ => k
  | _ => 0

/-- Whether a chip port of a package has trained and has not been taken down (R401). -/
def State.joined (s : State) (p : Nat) : Bool :=
  (s.ctlAt p).ports.any fun q => 72 ≤ q.1 && (q.2.st == .up || q.2.st == .retraining)

/-- Whether `sys` joins two packages (R401): a package to itself, and those whose chip ports have trained. -/
def State.sysJoins (s : State) (p q : Nat) : Bool := p == q || (s.joined p && s.joined q)

/-- Whether b is in D(a, X) (R268); `blade` says which packages `sys` joins. -/
def inDomain (blade : Nat → Nat → Bool) (a b : Agent) (x : Scope) : Bool :=
  match x, a.core, b.core with
  | .sys, _, _ => blade a.pkg b.pkg
  | .pkg, _, _ => a.pkg == b.pkg
  | .die, some c, some d => dieOf c == dieOf d
  | .clu, some c, some d => clusterId c == clusterId d
  | .core, some c, some d => c == d
  | _, _, _ => false

/-- The narrower of two scopes (R268). -/
def narrower (x y : Scope) : Scope := if x.code.toNat ≤ y.code.toNat then x else y

/-- The package of a location's home (R384, R251). -/
def homePkg (key : Nat) : Nat :=
  if isTensor key then tensorDie key / 8 else if isScratch key then pkgOf (keyCore key) else key / 2 ^ 50 % 4

/-- The die of a location's home, counted over the blade (R376, R384, R251). -/
def homeDie (key : Nat) : Nat :=
  if isTensor key then tensorDie key
  else if isScratch key then dieOf (keyCore key)
  else key / 2 ^ 50 % 4 * 8 + key / 2 ^ 46 % 8

/-- The cluster of a location's home, counted over the blade: its line's home slice (R262); none for a tensor's element. -/
def homeCluster (key : Nat) : Option Nat :=
  if isTensor key then none
  else if isScratch key then some (clusterId (keyCore key))
  else some (homeDie key * 36 + key % 2 ^ 46 / 128 % 36)

/-- Whether the home of a location lies in D(c, Y) (R279, R286). -/
def homeInDomain (key : Nat) (c : Agent) (y : Scope) : Bool :=
  match y, c.core with
  | .sys, _ => true
  | .pkg, _ => homePkg key == c.pkg
  | .die, some d => homeDie key == dieOf d
  | .clu, some d => homeCluster key == some (clusterId d)
  | .core, some d => isScratch key && keyCore key == d
  | _, none => false

/-! ### The history -/

/-- Whether a write touches any of the n bytes from a key. -/
def WriteRec.touches (r : WriteRec) (key n : Nat) : Bool :=
  r.addr < key + n && key < r.addr + r.old.length
    && (r.old.mapIdx fun i b => b.isSome && key ≤ r.addr + i && r.addr + i < key + n).any id

/-- The package of a write's home at a place in the order of writes and halves: its page may have moved since (R386). -/
def WriteRec.homeAt (r : WriteRec) (t : Nat) : Nat := ((r.was.find? fun p => t ≤ p.1).map (·.2)).getD (homePkg r.addr)

/-- The conditions of R272 on a release half at X and an acquire half of c at Y, for a write of a at a location whose home lies in a
package. -/
def publishesTo (blade : Nat → Nat → Bool) (a c : Agent) (home : Nat) (x y : Scope) : Bool :=
  inDomain blade a c (narrower x y) && (home == a.pkg || narrower x y == Scope.sys)

/-- Whether an acquire half of c at Y, which the halves `rels` and the writes before number t precede in curtain order,
makes a write published to c (R272). -/
def WriteRec.published (r : WriteRec) (blade : Nat → Nat → Bool) (rels : List Release) (t : Nat) (c : Agent) (y : Scope) : Bool :=
  (match r.alone with
    | some x => r.seq < t && publishesTo blade r.by_ c (r.homeAt t) x y
    | none => false)
  || rels.any fun h => h.by_ == r.by_ && r.seq < h.seq && h.seq < t && publishesTo blade r.by_ c (r.homeAt t) h.scope y

/-- Whether generation h of a barrier is generation g or one before it. -/
def notAfter (h g : Nat) : Bool := (g + 2 ^ 32 - h) % 2 ^ 32 < 2 ^ 31

/-- Whether a write is attached to a barrier and left its count for a generation that an agent has seen complete, by a
`bar.wait` that returned 1, with its home in D(c, Y) (R279). -/
def WriteRec.attached (r : WriteRec) (passed : List (Agent × Nat × Nat)) (c : Agent) (y : Scope) : Bool :=
  match r.bar with
  | some (k, b, h, false) => k == c.kid && homeInDomain r.addr c y && passed.any fun p => p.1 == c && p.2.1 == b && notAfter h p.2.2
  | _ => false

/-- Adding an agent to those a write counts for. -/
def WriteRec.see (r : WriteRec) (c : Agent) : WriteRec := if r.seen.contains c then r else { r with seen := c :: r.seen }

/-- The acceptance of an agent's kernel as an acquire half at `sys` (R422): a write that the halves before it publish
counts for every agent of the kernel. -/
def WriteRec.atLaunch (r : WriteRec) (blade : Nat → Nat → Bool) (rels : List Release) (accepted : Option Nat) (c : Agent) : Bool :=
  match accepted with
  | none => false
  | some t => r.published blade rels t c .sys

/-- When the kernel of an agent was accepted. -/
def State.acceptedOf (s : State) (c : Agent) : Option Nat :=
  (s.kernels.find? fun k => k.1 == c.kid).map fun k => k.2.accepted

/-- Whether `sys` joined two packages when a kernel was accepted (R401, R422). -/
def Kernel.joins (k : Kernel) (p q : Nat) : Bool := p == q || (k.joined.contains p && k.joined.contains q)

/-- The same for the kernel of an agent; of one without a kernel, as of now. -/
def State.joinedFor (s : State) (c : Agent) : Nat → Nat → Bool :=
  match s.kernels.find? fun k => k.1 == c.kid with
  | some k => k.2.joins
  | none => s.sysJoins

/-- Whether a write counts for every agent of a core, and for this one. -/
def WriteRec.atCore (r : WriteRec) (c : Agent) : Bool :=
  match c.core with
  | some d => r.cores.contains d
  | none => false

/-- Whether a write bounds the loads of c: its own, or published to it, or read by it before (R273). -/
def State.counts (s : State) (c : Agent) (r : WriteRec) : Bool :=
  r.by_ == c || r.seen.contains c || r.atCore c || r.atLaunch (s.joinedFor c) s.releases (s.acceptedOf c) c

/-- The writes to some bytes that are newer than the latest that counts for c, oldest first. -/
def newerThan (counts : WriteRec → Bool) : List WriteRec → List WriteRec
  | [] => []
  | r :: rs =>
    let later := newerThan counts rs
    if rs.any counts then later else if counts r then rs else r :: rs

/-- The bytes with one write undone. -/
def undo (bytes : List Byte) (key : Nat) (r : WriteRec) : List Byte :=
  bytes.mapIdx fun i b => if r.addr ≤ key + i then (r.old.getD (key + i - r.addr) none).getD b else b

/-- The bytes with the newest k of some writes undone. -/
def undoNewest (bytes : List Byte) (key k : Nat) (rs : List WriteRec) : List Byte :=
  (rs.reverse.take k).foldl (fun bs r => undo bs key r) bytes

/-- Marking what an agent has read: the writes to those bytes before number t (R275). -/
def State.sawBefore (s : State) (c : Agent) (key n t : Nat) : State :=
  { s with hist := s.hist.map fun r => if r.touches key n && r.seq < t then r.see c else r }

/-- A plain load of n bytes by an agent: the current bytes when no write newer than its bound touches them, otherwise
those of a freely chosen place between its bound and now (R269, R273); with the number of the first write that the value
does not hold yet. -/
def State.loadPoint (s : State) (c : Agent) (key n : Nat) : List Byte × Nat × State :=
  let now := Memory.bytes s.mem key n
  match newerThan (s.counts c) (s.hist.filter (·.touches key n)) with
  | [] => (now, s.seq, s)
  | r :: rs =>
    let newer := r :: rs
    let k := Config.freeView s.free % (newer.length + 1)
    let t := ((newer.drop (newer.length - k)).head?.map (·.seq)).getD s.seq
    (undoNewest now key k newer, t, { (s.sawBefore c key n t) with free := s.free + 1 })

/-- A plain load of n bytes by an agent. -/
def State.loadPlain (s : State) (c : Agent) (key n : Nat) : List Byte × State :=
  let r := s.loadPoint c key n
  (r.1, r.2.2)

/-- A load that returns nothing later than the writes before number t, because another load of the context, later in
program order, has read them (R31, R275): what those bytes held at a freely chosen place between the bound of R273 and then. -/
def State.loadBelow (s : State) (c : Agent) (key n t : Nat) : List Byte × State :=
  let newer := newerThan (s.counts c) (s.hist.filter (·.touches key n))
  let early := (newer.filter fun r => r.seq < t).length
  let k := Config.freeView s.free % (early + 1)
  let first := ((newer.drop (early - k)).head?.map (·.seq)).getD t
  (undoNewest (Memory.bytes s.mem key n) key (newer.length - early + k) newer, (s.sawBefore c key n (min first t)).drew)

/-- A load at the home of the location: the current bytes, which from then on bound the agent's loads (R274-R276). -/
def State.loadHome (s : State) (c : Agent) (key n : Nat) : List Byte × State :=
  (Memory.bytes s.mem key n, s.sawBefore c key n s.seq)

/-- A write of some bytes of a block, in the next place of coherence order (R269). -/
def State.storeRec (s : State) (c : Agent) (key : Nat) (data : List (Option Byte)) (alone : Option Scope)
    (bar : Option (Nat × Nat × Nat × Bool)) : State :=
  { s with
    mem := Memory.setSome s.mem key data
    hist := s.hist ++ [{ seq := s.seq, by_ := c, addr := key, old := Memory.oldSome s.mem key data, alone := alone,
                         bar := bar, seen := [], cores := [], bank := false }]
    seq := s.seq + 1 }

/-- A plain store by an agent. -/
def State.store (s : State) (c : Agent) (key : Nat) (data : List Byte) : State := s.storeRec c key (data.map some) none none

/-- The writes so far to n bytes from a key count from now on for every agent of a core (R260). -/
def State.handTo (s : State) (core key n : Nat) : State :=
  { s with hist := s.hist.map fun r => if r.touches key n && !r.cores.contains core then { r with cores := core :: r.cores } else r }

/-- A release half at X by an agent (R270). -/
def State.release (s : State) (c : Agent) (x : Scope) : State :=
  { s with releases := s.releases ++ [{ seq := s.seq, by_ := c, scope := x }], seq := s.seq + 1 }

/-- Whether an acquire half of c at Y, taken now, makes a write count for c (R272, R279). -/
def State.publishes (s : State) (c : Agent) (y : Scope) (r : WriteRec) : Bool :=
  r.published s.sysJoins s.releases s.seq c y || r.attached s.passed c y

/-- An acquire half at Y by an agent, of the writes that satisfy a test (R270, R271 item 3, R272). -/
def State.acquireOf (s : State) (c : Agent) (y : Scope) (p : WriteRec → Bool) : State :=
  { s with hist := s.hist.map fun r => if p r && s.publishes c y r then r.see c else r }

/-- An acquire half at Y by an agent (R270). -/
def State.acquire (s : State) (c : Agent) (y : Scope) : State := s.acquireOf c y fun _ => true

/-- A `bar.wait` of an agent has returned 1 for generation g of a barrier (R279). -/
def State.passes (s : State) (c : Agent) (bar g : Nat) : State :=
  if s.passed.any fun p => p.1 == c && p.2.1 == bar && notAfter g p.2.2 then s
  else { s with passed := (c, bar, g) :: s.passed.filter fun p => !(p.1 == c && p.2.1 == bar) }

/-- The acquire half of a `bar.wait` that returned 1 for generation g of a barrier: besides R272 and R279, a gather record
of that generation (R241). -/
def State.acquireBarrier (s : State) (c : Agent) (y : Scope) (kid bar g : Nat) : State :=
  let s := s.acquire c y
  { s with hist := s.hist.map fun r =>
      match r.bar with
      | some (k, b, h, true) => if k == kid && b == bar && h == g then r.see c else r
      | _ => r }

/-- What a `predwait` that writes 1 publishes to its context (R286): every write of the predecessor whose home lies in
D(c, Y), besides what its acquire half gives by R272. -/
def State.acquireFrom (s : State) (c : Agent) (y : Scope) (kid : Nat) : State :=
  { s with hist := s.hist.map fun r => if r.by_.kid == kid && homeInDomain r.addr c y then r.see c else r }

/-- The closing of a kernel: a release half at `sys` by each of its agents that has written (R282). -/
def State.closing (s : State) (kid : Nat) : State :=
  let writers := (s.hist.map (·.by_)).filter fun a => a.kid == kid
  writers.eraseDups.foldl (fun s a => s.release a .sys) s

/-- What the agent's own loads would see becomes what the fetches of its context see (R137). -/
def State.fetchSees (s : State) (c f : Agent) : State :=
  { s with hist := s.hist.map fun r => if s.counts c r then r.see f else r }

/-- Whether an agent is a context, and of a core. -/
def Agent.contextOf : Agent → Option Nat → Bool
  | .ctx _ c _, some d => c == d
  | _, _ => false

/-- Whether an agent is an engine command. -/
def Agent.isCommand : Agent → Bool
  | .command _ _ _ _ _ => true
  | _ => false

/-- What engine commands have written to bytes of a tile counts for a context that reads them through it in READY (R274). -/
def State.tileSeen (s : State) (c : Agent) (key n : Nat) : State :=
  { s with hist := s.hist.map fun r => if r.touches key n && r.by_.isCommand then r.see c else r }

/-- Whether a release half at `sys`, a closing's among them, has completed a write at its home (R277, R282). -/
def WriteRec.completed (r : WriteRec) (rels : List Release) : Bool :=
  rels.any fun h => h.by_ == r.by_ && r.seq < h.seq && h.scope == .sys

/-- Whether a write was performed at its home before it was counted there: an attached copy's (R279), or an engine command's in a
scratchpad's banks (R274). -/
def WriteRec.attachedThere (r : WriteRec) (key : Nat) : Bool :=
  (match r.bar with | some (_, _, _, false) => true | _ => false) || (isScratch key && r.by_.isCommand)

/-- Whether a write stands at the home that a location has at scope `x` for an agent (R121, R262, R274, R277). That is a scratchpad's
banks for every scope; in memory the line's one slice for `clu` and wider, and the agent's own core for `core`. There stands a scoped
store or an atomic at a scope with the same home, an attached copy's write, and any write that a release half at `sys` has completed. -/
def WriteRec.atHome (r : WriteRec) (rels : List Release) (c : Agent) (x : Scope) (key : Nat) : Bool :=
  if !isScratch key && x == .core then r.alone == some .core && c.core.isSome && r.by_.core == c.core
  else (r.alone.any fun y => isScratch key || y != .core) || r.attachedThere key || r.completed rels

/-- The writes that stand at the home of a location count for an agent whose scoped load goes there (R121). -/
def State.homeSeen (s : State) (c : Agent) (x : Scope) (key n : Nat) : State :=
  { s with hist := s.hist.map fun r => if r.touches key n && r.atHome s.releases c x key then r.see c else r }

/-- The writes by any context of its core bound an atomic at scope `core` (R276). -/
def State.coreBound (s : State) (c : Agent) (key n : Nat) : State :=
  { s with hist := s.hist.map fun r => if r.touches key n && r.by_.contextOf c.core then r.see c else r }

end Sys2Proof.Machine
end

