-- ==== Sys2Proof/Machine/Entries.lean ====
section
/-! DEFINITION. The entries of a tile table (R255, R256): their fields, reaching them, and the homes of their buffers. -/

namespace Sys2Proof.Machine

/-- ST (R255): 0 EMPTY, 1 FILLING, 2 READY, 3 DRAINING. -/
def tteSt (e : Word) : Nat := field e 62 2
/-- FO: a command naming the tile is queued and has not begun. -/
def tteFo (e : Word) : Bool := e.getLsbD 61
/-- WIN: the entry is a window. -/
def tteWin (e : Word) : Bool := e.getLsbD 60
/-- HELD: this core may access the buffer. -/
def tteHeld (e : Word) : Bool := e.getLsbD 59
/-- HCORE and HENT. -/
def tteHcore (e : Word) : Nat := field e 54 4
def tteHent (e : Word) : Nat := field e 48 6
/-- LEN and OFF. -/
def tteLen (e : Word) : Nat := field e 24 19
def tteOff (e : Word) : Nat := field e 0 19

/-- The core at a cluster position in the cluster of a core (R255). -/
def clusterMate (core pos : Nat) : Nat :=
  dieOf core * 576 + (rowOf core / 4 * 4 + pos / 4 % 4) * 24 + colOf core / 4 * 4 + pos % 4

/-- Entry n of a core's tile table. -/
def State.tteAt (s : State) (c n : Nat) : Word := ((s.coreAt c).tte.toList).getD n 0

/-- Replacing an entry of a core's tile table. -/
def State.setTte (s : State) (c n : Nat) (e : Word) : State :=
  let k := s.coreAt c
  if h : n < 64 then s.setCore c { k with tte := k.tte.set n e h } else s

/-- The tag that owns an entry, and setting it (R256). -/
def State.tteTagAt (s : State) (c n : Nat) : BitVec 10 := ((s.coreAt c).tteTag.toList).getD n 0
def State.setTteTag (s : State) (c n : Nat) (t : BitVec 10) : State :=
  let k := s.coreAt c
  if h : n < 64 then s.setCore c { k with tteTag := k.tteTag.set n t h } else s

/-- The home of an entry's buffer: core and entry number (R255). -/
def State.tteHome (s : State) (c n : Nat) : Nat × Nat :=
  let e := s.tteAt c n
  if tteWin e then (clusterMate c (tteHcore e), tteHent e) else (c, n)

end Sys2Proof.Machine
end

