-- ==== Sys2Proof/Machine/Protect.lean ====
section
/-! DEFINITION. The error logs (R369, R364), protection at rest (R266) and error injection (R370). -/

namespace Sys2Proof.Machine

/-! ### Error logs (R369) -/

/-- The key of an array instance among a control die's logs (R414). -/
def arrayKey (a : ArrayId) : Nat := a.kind * 65536 + a.inst

/-- An entry's KIND is clear or of a corrected kind: a new entry may overwrite it. -/
def logReplaceable (e : Word × Word × Word) : Bool := [0, 1, 4, 7, 8].contains (field e.2.1 56 8)

/-- An error log after a new entry (R369): it takes the oldest place that may be overwritten, or OVF is set. -/
def ErrorLog.add (g : ErrorLog) (kind : Nat) (e : Word × Word × Word) : ErrorLog :=
  let count := if [1, 4, 7, 8].contains kind then (satAdd (g.header.extractLsb' 0 32) 1).toNat else field g.header 0 32
  let h := setField g.header 0 32 count
  let start := field h 40 4
  match ((List.range 8).map fun i => (start + i) % 8).find? fun j => logReplaceable (g.entries.getD j (0, 0, 0)) with
  | some j =>
    if hj : j < 8 then { g with entries := g.entries.set j e hj, header := setField h 40 4 ((j + 1) % 8) } else g
  | none => { g with header := setBit h 32 true }

/-- The place a new entry takes (R364, R369); where it would be lost, the place after the last entry. -/
def ErrorLog.place (g : ErrorLog) : Nat :=
  let start := field g.header 40 4
  (((List.range 8).map fun i => (start + i) % 8).find? fun j => logReplaceable (g.entries.getD j (0, 0, 0))).getD start

/-- The place of the entry written last. -/
def ErrorLog.latest (g : ErrorLog) : Nat := (field g.header 40 4 + 7) % 8

/-- The error log of an array instance. -/
def State.logAt (s : State) (a : ArrayId) : ErrorLog := assocGet ErrorLog.reset (arrayKey a) (s.ctlAt a.pkg).logs

/-- Replacing an error log. -/
def State.setLog (s : State) (a : ArrayId) (g : ErrorLog) : State :=
  let c := s.ctlAt a.pkg
  s.setCtl a.pkg { c with logs := assocSet (arrayKey a) g c.logs }

/-- The entry's word at +0x08 for an access by a core's context slot, or by another agent of the core (slot 15). -/
def logWho (kind core slot tag : Nat) : Word :=
  BitVec.ofNat 64 (kind * 2 ^ 56 + dieOf core % 8 * 2 ^ 29 + clusterOf core * 2 ^ 23 + clusterPos core * 2 ^ 19 + slot % 16 * 2 ^ 15
    + tag % 1024)

/-- Logging an error of an array instance (R369). -/
def State.logError (s : State) (a : ArrayId) (kind : Nat) (addr : Word) (core slot tag : Nat) : State :=
  s.setLog a ((s.logAt a).add kind (addr, logWho kind core slot tag, BitVec.ofNat 64 s.timeBase))

/-- The slot and the tag of an agent as a log gives them (R369): those of the focused context, and of any other agent slot
15 and tag 0. -/
def State.logSlot (s : State) (c : Agent) : Nat × Nat :=
  if c == s.self || c == s.selfFetch then (s.slotId, s.slot.tag.toNat) else (15, 0)

/-- Logging an error that an agent's access met. -/
def State.logErrorOf (s : State) (a : ArrayId) (kind : Nat) (addr : Word) (c : Agent) : State :=
  s.logError a kind addr (c.core.getD (c.pkg * 4608)) (s.logSlot c).1 (s.logSlot c).2

/-- LOGREF of a machine check (R364): array kind, instance, log entry. -/
def logrefWord (a : ArrayId) (entry : Nat) : Word := BitVec.ofNat 64 (a.kind * 2 ^ 56 + a.inst * 2 ^ 8 + entry)

/-- LOGREF of the entry that comes next. -/
def State.logref (s : State) (a : ArrayId) : Word := logrefWord a (s.logAt a).place

/-- The log KIND of a machine check's cause (R369, R353). -/
def machineCheckKind (cause : BitVec 16) : Nat :=
  match cause.toNat with
  | 0x0E03 => 3
  | 0x0E04 => 5
  | 0x0E05 => 6
  | _ => 2

/-- LOGREF of a machine check, and the state with its log entry (R364, R369). A link delivery failure is logged when the
link fails: its LOGREF names the port's latest entry. -/
def State.logCheck (s : State) (t : Trap) (core slot tag : Nat) : Word × State :=
  match t.array with
  | none => (0, s)
  | some a =>
    if t.cause = 0x0E06 then (logrefWord a (s.logAt a).latest, s)
    else (s.logref a, s.logError a (machineCheckKind t.cause) (t.logAddr.getD t.addr) core slot tag)

/-! ### Protection at rest (R266, R370) -/

/-- The slice of a key's line as an array instance of a kind (R262, R414); for scratchpad the core's. -/
def arrayOf (kind key : Nat) : ArrayId :=
  if isScratch key then { pkg := pkgOf (keyCore key), kind := kind, inst := keyCore key % 4608 }
  else { pkg := key / 2 ^ 50 % 4, kind := kind, inst := 36 * (key / 2 ^ 46 % 8) + key % 2 ^ 46 / 128 % 36 }

/-- The address of a key as a log or report gives it: a scratchpad offset or a physical address, that of a tensor's element a free
value (R353, R369; log 9). -/
def reportAddr (key : Nat) : Word :=
  if isTensor key then Config.tensorAddr key else BitVec.ofNat 64 (if isScratch key then keyOffset key else key)

/-- The cause of an uncorrectable error in an array kind (R353). -/
def machineCheckCause (kind : Nat) : BitVec 16 :=
  match kind with
  | 1 => 0x0E00
  | 2 => 0x0E01
  | 3 => 0x0E02
  | 4 => 0x0E03
  | _ => 0x0E04

/-- The bytes that one code word of an array protects (R266): an 8-byte word, a line's tag, an access of HBM. -/
def unitBytes (kind : Nat) : Nat := if kind = 3 then 128 else if kind = 5 then 32 else 8

/-- The first byte of the unit in which a stored error lies. -/
def Flip.base (f : Flip) : Nat := f.word * 8 / unitBytes f.array.kind * unitBytes f.array.kind

/-- Whether n bytes from a key touch the unit of a stored error, and whether they are all of it. -/
def Flip.meets (f : Flip) (key n : Nat) : Bool := f.base < key + n && key < f.base + unitBytes f.array.kind
def Flip.inside (f : Flip) (key n : Nat) : Bool := key ≤ f.base && f.base + unitBytes f.array.kind ≤ key + n

/-- An access by an agent that reads the units of some stored errors: an uncorrectable one is a machine check, a
correctable one is corrected and logged (R266, R369). -/
def State.checkFlips (s : State) (c : Agent) (p : Flip → Bool) : Act State :=
  if s.flips.isEmpty then .ok s
  else
    let fs := s.flips.filter p
    match fs.find? (·.fatal) with
    | some f => .error (.trap { cause := machineCheckCause f.array.kind, addr := reportAddr (f.word * 8), array := some f.array })
    | none =>
      let s := fs.foldl (fun s f => s.logErrorOf f.array (if f.array.kind = 5 then 4 else 1) (reportAddr (f.word * 8)) c) s
      .ok { s with flips := s.flips.filter fun f => !p f }

/-- An access by an agent that reads n bytes from a key. -/
def State.checkRead (s : State) (c : Agent) (key n : Nat) : Act State := s.checkFlips c fun f => f.meets key n

/-- Whether a write of n bytes at a key reads the unit of a stored error first: a tag, which every access reads, and a
unit of which it writes a part (R266). -/
def Flip.readByWrite (f : Flip) (key n : Nat) : Bool := f.meets key n && (f.array.kind == 3 || !f.inside key n)

/-- The stored errors without those of the units that a write of n bytes at a key writes whole (R266). -/
def State.rewritten (s : State) (key n : Nat) : State :=
  { s with flips := s.flips.filter fun f => !(f.array.kind != 3 && f.inside key n) }

/-- A write by an agent to n bytes: a unit written in part is read first; a unit written whole loses any error it held
(R266). -/
def State.checkWrite (s : State) (c : Agent) (key n : Nat) : Act State := do
  let s ← s.checkFlips c fun f => f.readByWrite key n
  .ok (s.rewritten key n)

/-- Whether an armed injection of an error log matches a write of n bytes (R370). -/
def injects (kind key n : Nat) (g : ErrorLog) : Bool :=
  let u := unitBytes kind
  let a := g.injAdr.toNat / u * u
  let b := (reportAddr key).toNat
  g.injCtl.getLsbD 63 && a < b + n && b < a + u && (isScratch key == (kind == 1)) && [1, 2, 3, 5].contains kind

/-- The flipped bits that an injection stores (R370): one data or check bit, two different data bits, or the HBM
pattern. -/
def flipOf (a : ArrayId) (g : ErrorLog) (word : Nat) : List Flip :=
  match field g.injCtl 60 3 with
  | 0 => [{ array := a, word := word, fatal := false }]
  | 1 => if field g.injCtl 7 7 = field g.injCtl 0 7 then [] else [{ array := a, word := word, fatal := true }]
  | 2 => [{ array := a, word := word, fatal := false }]
  | 4 => if a.kind = 5 then [{ array := a, word := word, fatal := true }] else []
  | _ => []

/-- Whether an array instance stores a key: a scratchpad its own bytes, a slice its lines, an HBM channel bytes of its
die (the spec does not say which of the die's channels: any of them matches). -/
def storesKey (a : ArrayId) (key : Nat) : Bool :=
  if a.kind = 5 then !isScratch key && a.inst / 64 == key / 2 ^ 46 % 8 else a == arrayOf a.kind key

/-- One stored bit more of an array is flipped: a second one of a SECDED unit makes an error that its code only detects (R266; each
upset and each injection flips a bit of its own, log 35). -/
def State.flipped (s : State) (f : Flip) : State :=
  let same (g : Flip) : Bool := g.array == f.array && g.base == f.base && [1, 2, 3].contains f.array.kind
  if s.flips.any same then { s with flips := s.flips.map fun g => if same g then { g with fatal := true } else g }
  else { s with flips := s.flips ++ [f] }

/-- The word in which an injection at an address of a log's form flips bits, in a write at a key. -/
def injectedWord (key inj : Nat) : Nat :=
  if isTensor key then (key + inj - (reportAddr key).toNat) / 8 else (if isScratch key then spKey (keyCore key) 0 else 0) / 8 + inj / 8

/-- The injections that a write of n bytes at a key meets: each stores its flipped bits and disarms (R370). -/
def State.inject (s : State) (key n : Nat) : State :=
  let p := homePkg key
  let arr (h : Nat × ErrorLog) : ArrayId := { pkg := p, kind := h.1 / 65536, inst := h.1 % 65536 }
  let base := if isScratch key then spKey (keyCore key) 0 else 0
  let hits := (s.ctlAt p).logs.filter fun h => injects (arr h).kind key n h.2 && storesKey (arr h) (base + h.2.injAdr.toNat)
  hits.foldl (fun s h =>
    let s := s.setLog (arr h) { h.2 with injCtl := setBit h.2.injCtl 63 false }
    (flipOf (arr h) h.2 (injectedWord key h.2.injAdr.toNat)).foldl State.flipped s) s

/-- A write of bytes that stand in whole units, or of which the hardware holds the rest: with protection and injection. -/
def State.storeWhole (s : State) (c : Agent) (key : Nat) (data : List Byte) : State :=
  ((s.rewritten key data.length).store c key data).inject key data.length

/-! ### Accesses of agents that are no contexts (R266, R367) -/

/-- Reporting to the stagehands that a command or act of a kernel met a fault, as an agent that is no context (R325,
R364, R367). -/
def State.reportAct (s : State) (kid core : Nat) (cause : BitVec 16) (addr : Word) (logref : Word := 0) : State :=
  s.emit (.stop { kid := kid, tag := 0, core := core, slot := 15, cause := cause, orig := 0, wp := 0, pc := 0, addr := addr, logref := logref,
                  time := s.timeBase })

/-- A machine check of an agent that is no context: logged, and reported with SLOT 0xF (R367). -/
def State.reportCheck (s : State) (kid core : Nat) (t : Trap) : State :=
  let r := s.logCheck t core 15 0
  r.2.reportAct kid core t.cause t.addr r.1

/-- Stored bits change by themselves (R266). -/
def State.upset (s : State) (f : Flip) : State := s.flipped f

/-! ### Regions of HBM that the stagehands allocate for a core (R196, R421) -/

/-- An address of a core's die, in units of a size. -/
def dieUnit (core size n : Nat) : Nat :=
  dieOf core / 8 * 2 ^ 50 + dieOf core % 8 * 2 ^ 46 + n % (Config.dieMemoryBytes / size) * size

/-- Where a core's overflow region holds the message of a stamp. -/
def regionKey (core stamp : Nat) : Nat := dieUnit core 64 (Config.overflowAddr core stamp)

/-- Where a core's loop save region holds a body. -/
def saveKey (core wp : Nat) (withSeq : Bool) : Nat := dieUnit core 1024 (Config.saveAddr core wp withSeq)

end Sys2Proof.Machine
end

