-- ==== Sys2Proof/Machine/Ops.lean ====
section
/-! DEFINITION. The named operations over cores, slots, workspaces and traps: reaching a slot, saving and restoring a
context (R40, R41), fixing a resume position (R37), taking a trap (R34, R354) and returning from one (R38). -/

namespace Sys2Proof.Machine

/-! ### The focused core's scratchpad -/

/-- A word of the focused context's workspace as it stands in scratchpad. -/
def State.wsWord (s : State) (off : Nat) : Word :=
  wordOf (Memory.bytes s.mem (spKey s.coreId (s.slot.wp.toNat + off)) 8)

/-- Reading n bytes of it, with protection (R266). -/
def State.checkWs (s : State) (off n : Nat) : Act State := s.checkRead s.self (spKey s.coreId (s.slot.wp.toNat + off)) n

/-- Writing whole words of the focused context's workspace, with protection and injection (R266, R370). -/
def State.wsStore (s : State) (off : Nat) (data : List Byte) : State :=
  s.storeWhole s.self (spKey s.coreId (s.slot.wp.toNat + off)) data

/-- The bytes of a list of words. -/
def bytesOfWords (ws : List Word) : List Byte := ws.flatMap fun w => toBytes 8 w.toNat

/-! ### Scalar registers (R15) -/

/-- w0 reads as zero. -/
def wGet (w : Vector Word 24) (n : Fin 24) : Word := if n = 0 then 0 else w[n]

/-- A write to w0 is ignored. -/
def wSet (w : Vector Word 24) (n : Fin 24) (x : Word) : Vector Word 24 := if n = 0 then w else w.set n x

/-! ### Resume positions (R37) -/

/-- The boundary at which the scalar stream stands. -/
def Slot.here (x : Slot) : Boundary := { pos := x.pos, pc := x.pc, w := x.w, cue := x.cue, pp := pp x.status }

/-- The boundary after an entry's offload, but for the scalar registers that its own instance writes later. -/
def Entry.after (e : Entry) : Boundary :=
  { pos := e.at_.pos + 1, pc := e.addr + BitVec.ofNat 64 (4 * e.words.length), w := e.at_.w, cue := 0, pp := false }

/-- The boundary to which a dropped sequencer item sends S back: before an entry's own offload, before a loop's
vloop (R37 item 3). -/
def SeqItem.from_ : SeqItem → Boundary
  | .one e => e.at_
  | .loop l => l.at_

/-- The earlier of two boundaries. -/
def Boundary.earlier (a b : Boundary) : Boundary := if a.pos ≤ b.pos then a else b

/-- The entries of an item. -/
def SeqItem.entries : SeqItem → List Entry
  | .one e => [e]
  | .loop l => l.body

/-- Every entry that the sequencer holds (R28). -/
def Sequencer.entries (q : Sequencer) : List Entry :=
  q.items.flatMap SeqItem.entries ++ (match q.opened with | some o => o.body | none => [])

/-- The loop in which F lies: the sequencer's oldest item, if it is one. -/
def Sequencer.front (q : Sequencer) : Option Loop :=
  match q.items with
  | .loop l :: _ => some l
  | _ => none

/-- The entry whose instance is next. -/
def Sequencer.current (q : Sequencer) : Option Entry :=
  match q.items with
  | [] => none
  | .one e :: _ => some e
  | .loop l :: _ => l.body[l.ent]?

/-- The address of the instruction whose access a stream makes (R35 IPC). -/
def Slot.ipcOf (x : Slot) (vec : Bool) : Word := if vec then (x.seq.current.map (·.addr)).getD 0 else x.pc

/-- S (R37 item 3): the earliest of where the stream stands, the pushes of the entries that are discarded and the offloads of those
that are dropped. For a trap raised after its instruction completed, the boundary `done` after it is among them and S is never
earlier: S is that boundary. -/
def Slot.scalarResume (x : Slot) (cur : Boundary) (done : Option Boundary) : Boundary :=
  match done with
  | some f => f
  | none =>
    let dropped := (match x.seq.items with
      | .loop _ :: is => is
      | is => is).map SeqItem.from_
    ((x.q0 ++ x.q1).map (·.at_) ++ dropped ++ (x.seq.opened.map (·.at_)).toList).foldl Boundary.earlier cur

/-- The loop that is recorded: F's, when its vloop precedes S (R37 item 5). DESIGN CHOICE (log 54): where a discarded entry was pushed
between two body instructions of that loop, S lies inside the body and the loop is recorded all the same, so the body's rest
is offloaded again after it. -/
def Slot.recorded (x : Slot) (r : Boundary) : Option Loop :=
  match x.seq.front with
  | some l => if l.at_.pos < r.pos then some l else none
  | none => none

/-- Bringing a slot to a resume position: its registers, latch and PP at S, the pops of q2 and q3 after S returned,
q0, q1 and the sequencer emptied (R37). -/
def Slot.resumeAt (x : Slot) (r : Boundary) : Slot :=
  let undone := x.pops.filter fun p => r.pos ≤ p.pos
  { x with
    pc := r.pc
    w := r.w
    cue := r.cue
    status := setBit x.status 14 r.pp
    q0 := []
    q1 := []
    q2 := (undone.filter fun p => !p.third).map (·.val) ++ x.q2
    q3 := (undone.filter fun p => p.third).map (·.val) ++ x.q3
    seq := { items := [], opened := none }
    pops := [] }

/-! ### Saved loops (R35 VSEQ, R40 SEQ, R421) -/

/-- VSEQ, or SEQ, of a recorded loop. -/
def loopWord (l : Option Loop) (vec : Bool) : Word :=
  match l with
  | some l => BitVec.ofNat 64 (l.iter * 2 ^ 32 + l.body.length * 2 ^ 16 + (if vec then 256 else 0) + l.ent)
  | none => if vec then 256 else 0

/-- VN, or SEQN. -/
def loopCount (l : Option Loop) : Word := match l with | some l => BitVec.ofNat 64 l.n | none => 0
/-- VBASE, or SEQBASE. -/
def loopBase (l : Option Loop) : Word := match l with | some l => l.base | none => 0

/-- Keeping a recorded loop's body in the loop save region (R421). -/
def Core.saveLoop (k : Core) (wp : Nat) (withSeq : Bool) (l : Option Loop) : Core :=
  match l with
  | some l => { k with saves := { wp := wp, withSeq := withSeq, base := l.base, body := l.body }
                  :: k.saves.filter fun b => !(b.wp == wp && b.withSeq == withSeq) }
  | none => k

/-- The same for the focused core, with protection and injection (R266, R370). The save is no access of an instruction: an uncorrectable
error of a tag that it meets stays, and the read that reinstates the body takes the machine check (DESIGN CHOICE, log 35). -/
def State.saveLoop (s : State) (wp : Nat) (withSeq : Bool) (l : Option Loop) : State :=
  let t := { s with core := s.core.saveLoop wp withSeq l }
  match l with
  | none => t
  | some l =>
    let key := saveKey s.coreId wp withSeq
    let n := 64 * l.body.length
    match t.checkWrite s.self key n with
    | .ok u => u.inject key n
    | .error _ => t

/-- The body kept for a workspace that goes with a record, with this base and length (R421). -/
def Core.savedLoop (k : Core) (wp : Nat) (withSeq : Bool) (base : Word) (len : Nat) : Option (List Entry) :=
  (k.saves.find? fun b => b.wp == wp && b.withSeq == withSeq && b.base == base && b.body.length == len).map (·.body)

/-- A boundary earlier than any that a context reaches after it resumes: that of a reinstated loop. -/
def Boundary.first : Boundary := { pos := 0, pc := 0, w := Vector.replicate 24 0, cue := 0, pp := false }

/-- A body entry of a reinstated loop. -/
def Entry.reinstated (e : Entry) : Entry := { e with at_ := Boundary.first }

/-- QCNT and SEQQ: the numbers of q2 and q3 entries. -/
def queueCounts (q2 q3 : List Word) : Word := BitVec.ofNat 64 (q2.length + q3.length * 2 ^ 16)

/-- Four words of saved queue entries, oldest first (R35 QS2, QS3). -/
def fourWords (q : List Word) : List Word := (q ++ [0, 0, 0, 0]).take 4

/-- The check of R38 on a queue-count word. -/
def queueCountOk (x : Word) : Bool := x &&& ~~~(0x70007 : Word) == 0 && field x 0 3 ≤ 4 && field x 16 3 ≤ 4

/-- The check of R38 and R41 on a loop word: its loop, none when K is 0. -/
def State.checkLoop (s : State) (withSeq : Bool) (q n base : Word) : Option (Option Loop) :=
  let k := field q 16 5
  if k = 0 then some none
  else if k > 16 || field q 0 4 ≥ k || field q 32 32 ≥ field n 0 32 then none
  else
    match s.core.savedLoop s.slot.wp.toNat withSeq base k with
    | some body => some (some { base := base, n := field n 0 32, body := body.map (·.reinstated), iter := field q 32 32, ent := field q 0 4,
                                at_ := Boundary.first, after := Boundary.first })
    | none => none

/-- Reading the body that a record's loop is reinstated from, with protection (R266, R421). -/
def State.checkSaved (s : State) (withSeq : Bool) (q n base : Word) : Act State :=
  match s.checkLoop withSeq q n base with
  | some (some l) => s.checkRead s.self (saveKey s.coreId s.slot.wp.toNat withSeq) (64 * l.body.length)
  | _ => .ok s

/-- A slot with the loop that it goes on with as it resumes where it stands (R38, R41). -/
def Slot.reinstate (x : Slot) (l : Option Loop) : Slot :=
  { x with seq := { items := (l.map fun l => .loop { l with after := x.here }).toList, opened := none } }

/-! ### Switching contexts (R40, R41) -/

/-- A vector register's 128 bytes. -/
def vBytes (v : VReg) : List Byte := toBytes 128 v.toNat

/-- The register image that R13 and R40 lay down for a slot that stands at its resume position. -/
def Slot.image (x : Slot) (l : Option Loop) (seqq : Word) : List Byte :=
  bytesOfWords ((List.ofFn fun n : Fin 24 => wGet x.w n)
    ++ [x.pc, x.status, x.cue.setWidth 64, loopWord l false, loopCount l, loopBase l, seqq, 0])
    ++ x.v.toList.flatMap vBytes

/-- Saving the focused context in its workspace (R40): with UP clear, the q2 and q3 entries go into the upcall
record; the body of a recorded loop is kept with SEQ. -/
def State.saveContext (s : State) (l : Option Loop) : State :=
  let x := s.slot
  let u := up x.status
  let seqq := if u then 0 else queueCounts x.q2 x.q3
  let s := s.wsStore 0 (x.image l seqq)
  let s := if u then s else s.wsStore 0x970 (bytesOfWords ([seqq] ++ fourWords x.q2 ++ fourWords x.q3))
  ({ s with slot := { x with q2 := [], q3 := [] } }).saveLoop x.wp.toNat true l

/-- Bringing the focused context to a resume position as for a switch, and saving it (R40). -/
def State.switchOut (s : State) : State :=
  let x := s.slot
  let r := x.scalarResume x.here none
  let l := x.recorded r
  let s := { s with slot := x.resumeAt r }
  (s.count 11 (x.q0.length + x.q1.length)).saveContext l

/-- The vector register whose bytes begin at a key. -/
def State.vregAt (s : State) (key : Nat) : VReg := BitVec.ofNat 1024 (ofBytes (Memory.bytes s.mem key 128))

/-- Words from a key on. -/
def State.wordsAt (s : State) (key n : Nat) : List Word :=
  (List.range n).map fun i => wordOf (Memory.bytes s.mem (key + 8 * i) 8)

/-- The words of a list as the 24 scalar registers. -/
def regsOf (ws : List Word) : Vector Word 24 := Vector.ofFn fun i => if i.val = 0 then 0 else ws.getD i.val 0

/-- Switching in the context of the workspace at WP (R41); none when a check fails. -/
def State.loadContext (s : State) : Option State :=
  let key := spKey s.coreId s.slot.wp.toNat
  let st := s.wsWord 0x0C8 &&& statusFields
  let seqq := s.wsWord 0x0F0
  match s.checkLoop true (s.wsWord 0x0D8) (s.wsWord 0x0E0) (s.wsWord 0x0E8) with
  | none => none
  | some l =>
    if rmReserved (rmField st) || !queueCountOk seqq then none
    else some { s with slot := Slot.reinstate (l := l) { s.slot with
      w := regsOf (s.wordsAt key 24)
      v := Vector.ofFn fun i => s.vregAt (key + 0x100 + 0x80 * i.val)
      pc := s.wsWord 0x0C0
      status := st
      cue := (s.wsWord 0x0D0).extractLsb' 0 24
      q0 := []
      q1 := []
      q2 := (s.wordsAt (key + 0x978) 4).take (field seqq 0 3)
      q3 := (s.wordsAt (key + 0x998) 4).take (field seqq 16 3)
      pos := s.slot.pos + 1
      pops := [] } }

/-! ### Stops (R39, R354, R364) -/

/-- The stop report of the focused context (R364). -/
def State.stopReport (s : State) (cause orig : BitVec 16) (addr logref : Word) : StopReport :=
  { kid := s.slot.par.kid, tag := s.slot.tag, core := s.coreId, slot := s.slotId, cause := cause, orig := orig, wp := s.slot.wp, pc := s.slot.pc,
    addr := addr, logref := logref, time := s.timeBase }

/-- The context becomes STOPPED and the stagehands get the report. -/
def State.halt (s : State) (cause orig : BitVec 16) (addr logref : Word) : State :=
  let s := { s with slot := { s.slot with st := .stopped, par := { s.slot.par with stopped := cause } } }
  s.emit (.stop (s.stopReport cause orig addr logref))

/-- The stop report's 64 bytes (R364), as 8 words. -/
def StopReport.words (r : StopReport) : List Word :=
  [BitVec.ofNat 64 (r.slot % 16 * 2 ^ 42 + r.tag.toNat * 2 ^ 32 + r.orig.toNat * 2 ^ 16 + r.cause.toNat),
   BitVec.ofNat 64 (clusterPos r.core * 2 ^ 9 + clusterOf r.core * 2 ^ 3 + dieOf r.core % 8),
   r.wp, r.pc, r.addr, r.logref, BitVec.ofNat 64 r.time, 0]

/-- A context that cannot be switched in: it stands at the saved PC with nothing queued. -/
def State.notLoaded (s : State) : State :=
  { s with slot := { s.slot with pc := s.wsWord 0x0C0, q0 := [], q1 := [], q2 := [], q3 := [],
                                 seq := { items := [], opened := none }, pops := [] } }

/-- R41: switching a context in, stopping it with 0x0106 when a check fails, and with a machine check where the saved
context holds an uncorrectable error (R266, R367). -/
def State.switchIn (s : State) : State :=
  match (do
    let s ← s.checkWs 0 0x9B8
    s.checkSaved true (s.wsWord 0x0D8) (s.wsWord 0x0E0) (s.wsWord 0x0E8)) with
  | .ok s =>
    match s.loadContext with
    | some t => t
    | none => s.notLoaded.halt 0x0106 0 0 0
  | .error (.trap t) =>
    let r := s.logCheck t s.coreId s.slotId s.slot.tag.toNat
    r.2.notLoaded.halt t.cause 0 t.addr r.1
  | .error _ => s

/-! ### Taking a trap (R34-R39, R354, R357-R359) -/

/-- ENC0-ENC2 of an instruction's words (R35). -/
def encWords (ws : List IWord) : List Word :=
  let g (i : Nat) : BitVec 32 := ws.getD i 0
  [g 1 ++ g 0, g 3 ++ g 2, (0 : BitVec 32) ++ g 4]

/-- What a trap's record says of the trapping instruction. -/
structure TrapSource where
  ipc : Word
  words : List IWord
  /-- the trap arose in the vector stream (VSEQ.V) -/
  vector : Bool
  deriving DecidableEq, Repr

/-- The 31 words of the upcall record from 0x900 to 0x9F7 (R35). Where an unresolved branch's pops came back to a queue that had
filled again (R37), q2 or q3 holds more than the four entries of the record: DESIGN CHOICE (log 38), QCNT takes the whole count and
QS2 or QS3 the first four entries. -/
def recordWords (t : Trap) (src : TrapSource) (r : Boundary) (sstatus : Word) (l : Option Loop) (disc0 disc1 : Nat)
    (q2 q3 : List Word) : List Word :=
  [t.cause.setWidth 64, r.pc] ++ encWords src.words
    ++ [src.ipc, t.addr, sstatus, r.cue.setWidth 64, loopWord l src.vector, loopCount l, loopBase l,
        BitVec.ofNat 64 (disc0 + disc1 * 256), t.event.setWidth 64, queueCounts q2 q3]
    ++ fourWords q2 ++ fourWords q3 ++ List.replicate 8 0

/-- The upcall vector word's handler address, none when the word is invalid (R35, R39). -/
def uvecTarget (u : Word) : Option Word :=
  if u = 0 || u.extractLsb' 0 2 != 0 || u.extractLsb' 56 8 != 0 then none else some u

/-- Where a trap of this cause goes (R354): PFVEC for a page fault when it is nonzero, otherwise UVEC. -/
def State.vectorFor (s : State) (cause : BitVec 16) : Option Word :=
  if cause = 0x0B00 && s.core.pfvec != 0 then some (s.core.pfvec &&& 0x00FFFFFFFFFFFFFC)
  else uvecTarget (s.wsWord 0x9F8)

/-- The lowest page-fault slot that is free (R359). -/
def freePfe (p : Vector Word 16) : Option (Fin 16) := (List.finRange 16).find? fun i => !(p[i]).getLsbD 63

/-- A page-fault slot's word when it records a fault (R358, R359). -/
def pfeWord (kind slot : Nat) (wp : Word) : Word :=
  BitVec.ofNat 64 (2 ^ 63 + kind % 4 * 2 ^ 58 + slot % 16 * 2 ^ 8 + wp.toNat / 4096 % 128)

/-- Whether an address lies in a valid region of a core (R265). -/
def inRegion (rgn : Vector Word 4) (va : Nat) : Bool :=
  rgn.toList.any fun g => g.getLsbD 0 && field g 21 35 * 2 ^ 21 ≤ va && va < (field g 21 35 + field g 1 5 + 1) * 2 ^ 21

/-- The first address of the page in which a core's access to an address lies (R265, R378). -/
def Core.pageOf (k : Core) (va : Nat) : Nat := if inRegion k.rgn va then va / 2 ^ 10 * 2 ^ 10 else va / 2 ^ 21 * 2 ^ 21

/-- A page as a cluster's walker knows it (R382). -/
def State.pageKey (s : State) (core va : Nat) : Nat × BitVec 12 × Nat :=
  let k := s.coreAt core
  (clusterId core, k.aspace.extractLsb' 52 12, k.pageOf va)

/-- A resolvable miss of a core at an address: one resolution request goes out for the page (R359, R381, R382). -/
def State.requestPage (s : State) (core : Nat) (pfe : Option Nat) (va : Word) : State :=
  let p := s.pageKey core va.toNat
  if s.resolving.contains p then s else { s with resolving := p :: s.resolving }.emit (.pageFault core pfe va)

/-- The request for the page of an address is answered, or its page is there. -/
def State.answered (s : State) (core va : Nat) : State :=
  if s.resolving.isEmpty then s else { s with resolving := s.resolving.filter fun p => p != s.pageKey core va }

/-- R359 step 1 and 3: recording the page fault; none when every slot is valid, and the instruction stalls. -/
def State.recordPageFault (s : State) (t : Trap) : Option State :=
  match freePfe s.core.pfe with
  | none => none
  | some i =>
    let s := { s with core := { s.core with
      pfe := s.core.pfe.set i (pfeWord t.kind s.slotId s.slot.wp)
      pfeWho := s.core.pfeWho.set i s.slot.par.ident
      pfePage := s.core.pfePage.set i (s.core.pageOf t.addr.toNat)
      pfeAsid := s.core.pfeAsid.set i (s.core.aspace.extractLsb' 52 12) } }
    some (s.requestPage s.coreId (some i.val) t.addr)

/-- The upcall itself (R34): the record written, q2 and q3 moved into it, PP and the latch cleared, UP set, the PC at
the handler. -/
def State.upcall (s : State) (t : Trap) (src : TrapSource) (cur : Boundary) (done : Option Boundary) (target : Word) :
    State :=
  let x := s.slot
  let r := x.scalarResume cur done
  let l := x.recorded r
  let y := x.resumeAt r
  let rec_ := recordWords t src r (setBit y.status 15 false) l x.q0.length x.q1.length y.q2 y.q3
  let s := ({ s with slot := y }).count 11 (x.q0.length + x.q1.length)
  let s := s.wsStore 0x900 (bytesOfWords rec_)
  ({ s with
    slot := { y with q2 := [], q3 := [], cue := 0, status := setBit (setBit y.status 14 false) 15 true, pc := target,
                     pos := y.pos + 1, par := { y.par with refused := none } } }).saveLoop x.wp.toNat false l

/-- A stop at a trap (R39, R354): the context is brought to its resume position and saved as for a switch, and
becomes STOPPED. -/
def State.stopAt (s : State) (cause orig : BitVec 16) (addr logref : Word) (cur : Boundary) (done : Option Boundary) :
    State :=
  let x := s.slot
  let r := x.scalarResume cur done
  let l := x.recorded r
  let s := ({ s with slot := x.resumeAt r }).count 11 (x.q0.length + x.q1.length)
  (s.saveContext l).halt cause orig addr logref

/-- A machine check of the focused context (R354, R367): logged, and a stop. -/
def State.machineCheck (s : State) (t : Trap) (cur : Boundary) (done : Option Boundary) : State :=
  let r := s.logCheck t s.coreId s.slotId s.slot.tag.toNat
  r.2.stopAt t.cause 0 t.addr r.1 cur done

/-- Where a trap goes once its vector has been read (R354): a page fault takes a page-fault slot, or stalls while none is
free; a bad vector stops the context with 0x0F01; otherwise it is an upcall. -/
def State.takeUpcall (s : State) (t : Trap) (src : TrapSource) (cur : Boundary) (done : Option Boundary) : State :=
  match s.vectorFor t.cause with
  | none => s.stopAt 0x0F01 0 t.addr 0 cur done
  | some target =>
    if t.cause = 0x0B00 then
      match s.recordPageFault t with
      | some s => s.upcall t src cur done target
      | none => s
    else s.upcall t src cur done target

/-- Taking a trap (R354): a machine check stops the context; with UP set it stops with 0x0F00; otherwise it goes by its
vector; the UVEC word, where that is the one, may hold an error of its own (R266). No rule gives the ADDR of the stop report for 0x0F00
and 0x0F01: DESIGN CHOICE (log 54), it is that of the trap which could not be taken. -/
def State.takeTrap (s : State) (t : Trap) (src : TrapSource) (cur : Boundary) (done : Option Boundary) : State :=
  let s := if t.cause = 0x0702 then s.count 10 1 else s
  if t.cause.extractLsb' 8 8 = 0x0E then s.machineCheck t cur done
  else if up s.slot.status then s.stopAt 0x0F00 t.cause t.addr 0 cur done
  else
    match if t.cause = 0x0B00 && s.core.pfvec != 0 then .ok s else s.checkWs 0x9F8 8 with
    | .ok s => s.takeUpcall t src cur done
    | .error (.trap m) => s.machineCheck m cur done
    | .error _ => s

/-- Returning from an upcall (R38): the checks on the record, none when one fails; then STATUS, the latch, q2, q3 and
the loop are taken from it and the PC is EPC. -/
def State.upcallReturn (s : State) : Option State :=
  let key := spKey s.coreId s.slot.wp.toNat
  let sst := s.wsWord 0x938
  let qcnt := s.wsWord 0x970
  match s.checkLoop false (s.wsWord 0x948) (s.wsWord 0x950) (s.wsWord 0x958) with
  | none => none
  | some l =>
    if rmReserved (rmField sst) || !queueCountOk qcnt then none
    else some { s with slot := Slot.reinstate (l := l) { s.slot with
      status := sst &&& 0x0000007F00005E00
      cue := (s.wsWord 0x940).extractLsb' 0 24
      q2 := (s.wordsAt (key + 0x978) 4).take (field qcnt 0 3)
      q3 := (s.wordsAt (key + 0x998) 4).take (field qcnt 16 3)
      pc := s.wsWord 0x908
      pos := s.slot.pos + 1
      pops := [] } }

/-! ### Completing a scalar instruction -/

/-- Pops that no resume position can undo any longer are forgotten. -/
def Slot.settlePops (x : Slot) : Slot :=
  if x.q0.isEmpty && x.q1.isEmpty && x.seq.items.isEmpty && x.seq.opened.isNone then { x with pops := [] } else x

/-- The slot after an instruction of n bytes that does not branch. -/
def Slot.advance (x : Slot) (n : Nat) : Slot :=
  ({ x with pc := x.pc + BitVec.ofNat 64 n, pos := x.pos + 1 } : Slot).settlePops

/-- The slot after an instruction that sets the PC. -/
def Slot.jump (x : Slot) (target : Word) : Slot := ({ x with pc := target, pos := x.pos + 1 } : Slot).settlePops

/-- A slot in which the instruction at an address has completed: a refusal that awaited it is spent (R361). -/
def Slot.unrefused (x : Slot) (ipc : Word) : Slot :=
  { x with par := { x.par with refused := x.par.refused.filter fun r => r.1 != ipc } }

/-- The state after an instruction of n bytes that does not branch. -/
def State.advance (s : State) (n : Nat) : State := { s with slot := (s.slot.advance n).unrefused s.slot.pc }

/-- The state after an instruction that sets the PC. -/
def State.jump (s : State) (target : Word) : State := { s with slot := (s.slot.jump target).unrefused s.slot.pc }

/-- The address after an instruction of n bytes. -/
def State.nextPc (s : State) (n : Nat) : Word := s.slot.pc + BitVec.ofNat 64 n

end Sys2Proof.Machine
end

