-- ==== Sys2Proof/Machine/Access.lean ====
section
/-! DEFINITION. Addresses and accesses: the local window (R251), translation (R375-R383), the routes between packages
(R388, R395), protection at rest (R266, R370), and the loads, stores and atomics of a context (R117-R124, R264). -/

namespace Sys2Proof.Machine

/-! ### Kinds of access -/

/-- What an access does, in the order of KIND in a page-fault slot (R358). -/
inductive Acc where
  | fetch | load | store | atomic
  deriving DecidableEq, Repr

/-- The KIND code (R358). -/
def Acc.code : Acc → Nat
  | .fetch => 0
  | .load => 1
  | .store => 2
  | .atomic => 3

/-! ### Routes (R394, R395, R388) -/

/-- Whether a physical address is in I/O space (R376). -/
def isIo (key : Nat) : Bool := !isScratch key && !isTensor key && key / 2 ^ 49 % 2 == 1

/-- What a link, or a choice of links, lets traffic do (R395): pass, wait while it retrains, or nothing. -/
inductive LinkUse where
  | passes | waits | none_
  deriving DecidableEq, Repr

/-- The state of a port of a package. -/
def State.portSt (s : State) (p n : Nat) : LinkState := (assocGet Port.reset n (s.ctlAt p).ports).st

/-- What the four chip ports of package p toward package q let traffic do (R394). -/
def State.chipUse (s : State) (p q : Nat) : LinkUse :=
  let sts := ((List.range 12).filter fun j => (p + j / 4 + 1) % 4 == q).map fun j => s.portSt p (72 + j)
  if sts.contains .up then .passes else if sts.contains .retraining then .waits else .none_

/-- Whether one of the four chip ports of package p toward package q is up (R394). -/
def State.chipLink (s : State) (p q : Nat) : Bool := s.chipUse p q == .passes

/-- The port of node a of a package toward node b (R391, R394, R414): dies 0 to 7 by their arrangement, the control die 8. -/
def portToward (a b : Nat) : Option Nat :=
  if a = 8 then (if b < 8 then some (64 + b) else none)
  else if b = 8 then some (8 * a + 4)
  else if a / 4 = b / 4 then (if b + 1 = a then some (8 * a) else if a + 1 = b then some (8 * a + 1) else none)
  else if b + 4 = a then some (8 * a + 2) else if a + 4 = b then some (8 * a + 3) else none

/-- What the link between two nodes of a package lets traffic do: the spec gives no training of these links before the
dies run, so an untrained one passes traffic (DESIGN CHOICE, log 49). -/
def State.dieLink (s : State) (p a b : Nat) : LinkUse :=
  match portToward a b, portToward b a with
  | some i, some j =>
    if s.portSt p i = .down || s.portSt p j = .down then .none_
    else if s.portSt p i = .retraining || s.portSt p j = .retraining then .waits
    else .passes
  | _, _ => .none_

/-- The nodes that some nodes reach over links that satisfy a test, in n links. -/
def spread (ok : Nat → Nat → Bool) (ns : List Nat) : Nat → List Nat
  | 0 => ns
  | n + 1 => spread ok ((List.range 9).filter fun b => ns.contains b || ns.any fun a => ok a b) n

/-- What the routes between two nodes of a package let traffic do (R395: around the arrangement where a link is down). -/
def State.innerUse (s : State) (p a b : Nat) : LinkUse :=
  if a = b || ((s.ctlAt p).ports.all fun q => q.1 ≥ 72 || !(q.2.st == .down || q.2.st == .retraining)) then .passes
  else if (spread (fun i j => s.dieLink p i j == .passes) [a] 9).contains b then .passes
  else if (spread (fun i j => s.dieLink p i j != .none_) [a] 9).contains b then .waits
  else .none_

/-- How traffic reaches a home. -/
inductive Route where
  | direct
  | through (p : Nat)
  | waits
  | none_
  deriving DecidableEq, Repr

/-- The route between packages: direct, or through the lowest third package whose ports toward both ends are up
(R395). -/
def State.route (s : State) (p q : Nat) : Route :=
  if p = q then .direct
  else match s.chipUse p q with
    | .passes => .direct
    | .waits => .waits
    | .none_ =>
      match (List.range 4).find? fun t => t != p && t != q && s.chipLink t p && s.chipLink t q with
      | some t => .through t
      | none => .none_

/-- A route that a stretch inside a package precedes or follows. -/
def Route.with (r : Route) (u : LinkUse) : Route :=
  match u, r with
  | .none_, _ => .none_
  | _, .none_ => .none_
  | .waits, _ => .waits
  | .passes, r => r

/-- The node of a package at which a location's home lies: its die, or the control die for I/O space. -/
def homeNode (key : Nat) : Nat := if isIo key then 8 else homeDie key % 8

/-- The route from a node of a package to the home of a location. -/
def State.routeTo (s : State) (p node key : Nat) : Route :=
  let q := homePkg key
  if p = q then Route.direct.with (s.innerUse p node (homeNode key))
  else ((s.route p q).with (s.innerUse p node 8)).with (s.innerUse q 8 (homeNode key))

/-- The node at which an agent stands. -/
def Agent.node (c : Agent) : Nat := match c.core with | some d => dieOf d % 8 | none => 8

/-- The port whose failure a link delivery failure names: the first of the node's own that is down, else the first of the
package's that is (DESIGN CHOICE, log 49). -/
def State.deadPort (s : State) (p node : Nat) : ArrayId :=
  let down := (s.ctlAt p).ports.filter fun q => q.2.st == .down
  let own := down.filter fun q => if node = 8 then 64 ≤ q.1 else q.1 / 8 == node
  { pkg := p, kind := 6, inst := (((own ++ down).head?.map (·.1)).getD 72) }

/-- A link delivery failure of an access by an agent (R395, R353). -/
def State.undelivered (s : State) (c : Agent) (key : Nat) : Trap :=
  { cause := 0x0E06, addr := if isTensor key then reportAddr key else BitVec.ofNat 64 key, array := some (s.deadPort c.pkg c.node) }

/-- Traffic of an agent at a node of a package to the home of a location: it passes, waits while a link retrains, or has no
route left, which is a machine check (R395). -/
def State.passage (s : State) (c : Agent) (p node key : Nat) : Act Unit :=
  match s.routeTo p node key with
  | .none_ => .error (.trap (s.undelivered c key))
  | .waits => blockOn .other
  | _ => .ok ()

/-- Traffic of the focused context to the control die of its package, which no address names: it passes, waits while a link retrains,
or has no route left (R395). The spec gives no address for the machine check: DESIGN CHOICE (log 49), its ADDR is 0. -/
def State.toControl (s : State) : Act Unit :=
  match s.innerUse (pkgOf s.coreId) (dieOf s.coreId % 8) 8 with
  | .none_ => .error (.trap { cause := 0x0E06, array := some (s.deadPort (pkgOf s.coreId) (dieOf s.coreId % 8)) })
  | .waits => blockOn .other
  | .passes => .ok ()

/-! ### Translation (R378-R382) -/

/-- A leaf that a walk found. -/
structure Leaf where
  pte : Nat
  frame : Nat
  small : Bool
  r : Bool
  w : Bool
  x : Bool
  deriving DecidableEq, Repr

/-- How a walk ends (R380). -/
inductive Walk where
  | leaf (l : Leaf)
  | fault
  | violation
  deriving DecidableEq, Repr

/-- Where an address in a frame that a page has left now lies: a request that names the old frame is redirected, and reissued there
(R387). -/
def State.forwarded (s : State) (key : Nat) : Nat :=
  s.redirects.foldr (fun r k => if r.frame ≤ k && k < r.frame + (if r.small then 2 ^ 10 else 2 ^ 21) then r.dest + (k - r.frame) else k) key

/-- The entry of a table (R378): 8 bytes, little-endian, where the table now lies (R387). -/
def State.tableEntry (s : State) (addr : Nat) : Word := wordOf (Memory.bytes s.mem (s.forwarded addr) 8)

/-- FRAME of an entry as a physical address (R379). -/
def pteFrame (e : Word) : Nat := field e 10 42 * 1024
/-- TYPE of an entry. -/
def pteType (e : Word) : Nat := field e 1 2
/-- The reserved bits of an entry are zero. -/
def pteReservedOk (e : Word) : Bool := field e 52 12 == 0 && field e 6 4 == 0
/-- A table pointer is well formed: aligned, and in memory space (R380). -/
def tableOk (e : Word) (align : Nat) : Bool := pteReservedOk e && pteFrame e % align == 0 && pteFrame e / 2 ^ 49 % 2 == 0

/-- Whether a leaf's frame may be used (R380, R391, R392): in memory space below 96 GiB of its die; in I/O space in a
block that is not reserved, and of the register block only a notify register's 1 KiB page. -/
def frameOk (frame : Nat) (small : Bool) : Bool :=
  if frame / 2 ^ 49 % 2 = 0 then frame % 2 ^ 46 < Config.dieMemoryBytes
  else
    match frame / 2 ^ 46 % 8 with
    | 0 | 1 | 2 => true
    | 7 => small && frame % 2 ^ 46 < 0x40000
    | _ => false

/-- The end of a walk at a leaf entry of a type and alignment. -/
def leafOf (pte : Nat) (e : Word) (small : Bool) : Walk :=
  if !pteReservedOk e || pteType e != (if small then 3 else 1) then .violation
  else if !small && pteFrame e % 2 ^ 21 != 0 then .violation
  else if !frameOk (pteFrame e) small then .violation
  else .leaf { pte := pte, frame := pteFrame e, small := small, r := e.getLsbD 3, w := e.getLsbD 4, x := e.getLsbD 5 }

/-- The walk from a level down (R380); `sub` says that the address lies in a region. -/
def State.walkFrom (s : State) (sub : Bool) (va : Nat) : Nat → Nat → Walk
  | 0, table =>
    let pte := table + 8 * (va / 2 ^ 21 % 512)
    let e := s.tableEntry pte
    if !e.getLsbD 0 then .fault
    else if sub then
      if !tableOk e (2 ^ 14) || pteType e != 2 then .violation
      else
        let pte := pteFrame e + 8 * (va / 2 ^ 10 % 2048)
        let e := s.tableEntry pte
        if !e.getLsbD 0 then .fault else leafOf pte e true
    else leafOf pte e false
  | level + 1, table =>
    let index := if level = 2 then va / 2 ^ 48 % 256 else va / 2 ^ (21 + 9 * (level + 1)) % 512
    let e := s.tableEntry (table + 8 * index)
    if !e.getLsbD 0 then .fault
    else if !tableOk e 4096 || pteType e != 0 then .violation
    else State.walkFrom s sub va level (pteFrame e)

/-- The walk of a core for an address (R377, R380). -/
def State.walk (s : State) (core : Nat) (va : Nat) : Walk :=
  let k := s.coreAt core
  if !k.aspace.getLsbD 0 then .violation else s.walkFrom (inRegion k.rgn va) va 3 (field k.aspace 12 40 * 4096)

/-- Whether a TLB entry translates an address for an address space. -/
def TlbEntry.hits (t : TlbEntry) (asid : BitVec 12) (va : Nat) : Bool :=
  t.asid == asid && t.page ≤ va && va < t.page + (if t.small then 2 ^ 10 else 2 ^ 21)

/-- A translation as a TLB holds it. -/
def Leaf.entry (l : Leaf) (asid : BitVec 12) (va : Nat) : TlbEntry :=
  { asid := asid, page := if l.small then va / 2 ^ 10 * 2 ^ 10 else va / 2 ^ 21 * 2 ^ 21, small := l.small, frame := l.frame,
    r := l.r, w := l.w, x := l.x }

/-- A TLB with an entry loaded, the newest first, within its size: of a full TLB the oldest entry leaves (DESIGN CHOICE,
log 8: which translations a TLB holds is not architectural). An older translation of the same page stays until a
shootdown or a redirect takes it away: an agent may use either, access by access (R383). -/
def loadTlb (size : Nat) (e : TlbEntry) (t : List TlbEntry) : List TlbEntry := (e :: t.filter fun o => o != e).take size

/-- Loading a translation into a core's and its cluster's TLB (R382). -/
def State.tlbLoad (s : State) (core : Nat) (e : TlbEntry) : State :=
  let k := s.coreAt core
  let s := if k.tlb.contains e then s else s.setCore core { k with tlb := loadTlb 256 e k.tlb }
  let c := assocGet [] (clusterId core) s.clusterTlb
  if c.contains e then s else { s with clusterTlb := assocSet (clusterId core) (loadTlb 4096 e c) s.clusterTlb }

/-- The translations that the TLBs of a core and its cluster hold for an address, other than the tables' own and those to
a frame from which a move has redirected (R382, R387): of 1 KiB pages inside the core's regions and of 2 MiB pages outside (R380). -/
def State.staleEntries (s : State) (core : Nat) (va : Nat) (fresh : Walk) : List TlbEntry :=
  let k := s.coreAt core
  let asid := k.aspace.extractLsb' 52 12
  if !k.aspace.getLsbD 0 then []
  else (k.tlb ++ assocGet [] (clusterId core) s.clusterTlb).filter fun t =>
    t.hits asid va && t.small == inRegion k.rgn va && !s.redirects.any (fun r => r.frame == t.frame && r.small == t.small)
      && (match fresh with
        | .leaf l => l.entry asid t.page != t
        | _ => true)

/-- The translation of an address for a core: by the tables, or, while a TLB holds another one, by a free choice among
those (R382, R383; log 8). -/
def State.translate (s : State) (core : Nat) (va : Nat) : Walk × State :=
  let asid := (s.coreAt core).aspace.extractLsb' 52 12
  let fresh := s.walk core va
  let keep (s : State) : Walk × State :=
    match fresh with
    | .leaf l => (fresh, s.tlbLoad core (l.entry asid va))
    | _ => (fresh, s)
  match s.staleEntries core va fresh with
  | [] => keep s
  | t :: ts =>
    match (t :: ts)[Config.freeEntry s.free % (ts.length + 2)]? with
    | some t => (.leaf { pte := 0, frame := t.frame, small := t.small, r := t.r, w := t.w, x := t.x }, s.drew)
    | none => keep s.drew

/-- The addresses of the entries that a walk from a level down reads (R380). -/
def State.trailFrom (s : State) (sub : Bool) (va : Nat) : Nat → Nat → List Nat
  | 0, table =>
    let pte := table + 8 * (va / 2 ^ 21 % 512)
    let e := s.tableEntry pte
    if e.getLsbD 0 && sub && tableOk e (2 ^ 14) && pteType e == 2 then [pte, pteFrame e + 8 * (va / 2 ^ 10 % 2048)] else [pte]
  | level + 1, table =>
    let index := if level = 2 then va / 2 ^ 48 % 256 else va / 2 ^ (21 + 9 * (level + 1)) % 512
    let pte := table + 8 * index
    let e := s.tableEntry pte
    if e.getLsbD 0 && tableOk e 4096 && pteType e == 0 then pte :: State.trailFrom s sub va level (pteFrame e) else [pte]

/-- The reads of a walk for an address, on behalf of an agent of a core: each reaches the table's home (R395), with protection
(R266, R367). -/
def State.checkWalk (s : State) (c : Agent) (core : Nat) (va : Nat) : Act State :=
  let k := s.coreAt core
  if !k.aspace.getLsbD 0 then .ok s
  else ((s.trailFrom (inRegion k.rgn va) va 3 (field k.aspace 12 40 * 4096)).map s.forwarded).foldlM (fun s a => do
    s.passage c (pkgOf core) (dieOf core % 8) a
    s.checkRead c a 8) s

/-- Whether a TLB holds what the tables give for an address, so that no walk is needed (R382). -/
def State.heldFresh (s : State) (core : Nat) (va : Nat) : Bool :=
  let k := s.coreAt core
  match s.walk core va with
  | .leaf l =>
    let e := l.entry (k.aspace.extractLsb' 52 12) va
    k.tlb.contains e || (assocGet [] (clusterId core) s.clusterTlb).contains e
  | _ => false

/-- The translation of an address for an access by an agent. -/
def State.translateFor (s : State) (c : Agent) (core : Nat) (va : Nat) : Act (Walk × State) := do
  let s ← if s.heldFresh core va then .ok s else s.checkWalk c core va
  .ok (s.translate core va)

/-- Whether a leaf permits an access (R381). -/
def Leaf.permits (l : Leaf) (k : Acc) : Bool :=
  match k with
  | .fetch => l.x
  | .load => l.r
  | .store => l.w
  | .atomic => l.r && l.w

/-- The physical address of an address under a leaf. -/
def Leaf.phys (l : Leaf) (va : Nat) : Nat := l.frame + va % (if l.small then 2 ^ 10 else 2 ^ 21)

/-! ### Page homes (R384-R386) -/

/-- Whether a page is moving. -/
def PageHome.moving (p : PageHome) : Bool := match p.st with | .migrating _ => true | _ => false

/-- Whether a physical address lies in a page. -/
def PageHome.holds (p : PageHome) (key : Nat) : Bool := p.frame ≤ key && key < p.frame + (if p.small then 2 ^ 10 else 2 ^ 21)

/-- The position of the oldest item of a sequencer, or of its open body. -/
def Sequencer.oldest (q : Sequencer) : Nat :=
  match q.items with
  | .one e :: _ => e.at_.pos
  | .loop l :: _ => l.at_.pos
  | [] => (q.opened.map (·.at_.pos)).getD 0

/-- The position of the offload of the instance that is next (R31). -/
def Sequencer.offloadedAt (q : Sequencer) : Nat :=
  match q.items with
  | .one e :: _ => e.at_.pos
  | .loop l :: _ => ((l.body[l.ent]?).map (·.at_.pos)).getD 0
  | [] => 0

/-- A slot's next vector instance as a request. -/
def Slot.instRequest (x : Slot) (core slot : Nat) : PageReq :=
  match x.seq.items with
  | .loop l :: _ => .inst core slot l.at_.pos l.iter l.ent
  | _ => .inst core slot x.seq.oldest 0 0

/-- Whether a queued request is still to be made: a stream of a context is still at it, a command is still in a queue, a
generation is not complete. -/
def State.stillQueued (s : State) (r : PageReq) : Bool :=
  match r with
  | .slot c k pos =>
    let x := s.slotAt c k
    (x.st == .active || x.st == .waiting) && x.pos == pos
  | .inst c k _ _ _ =>
    let x := s.slotAt c k
    (x.st == .active || x.st == .waiting) && !x.seq.items.isEmpty && x.instRequest c k == r
  | .command id =>
    (s.core :: s.cores.map (·.2)).any (fun k => k.mx.queue.any (·.from_.id == id) || k.xq.any (·.from_.id == id))
      || s.tops.any (·.from_.id == id)
  | .tree kid bar done => (s.kernelAt kid).any fun k => k.ended.isNone && k.barriers.any fun b => b.1 == bar && b.2.done == done
  | .write _ _ _ _ => true
  | .read _ _ _ _ => true
  | .update _ _ _ _ _ => true
  | .notify _ _ _ => true

/-- The present access of the focused context's scalar or vector stream as a request. -/
def State.asRequest (s : State) (vec : Bool) : PageReq :=
  if vec then s.slot.instRequest s.coreId s.slotId else .slot s.coreId s.slotId s.slot.pos

/-- Whether two requests come from the same stream of a context slot, from one kernel's tree, or are one. -/
def PageReq.same : PageReq → PageReq → Bool
  | .slot c k _, .slot d l _ => c == d && k == l
  | .inst c k _ _ _, .inst d l _ _ _ => c == d && k == l
  | .command i, .command j => i == j
  | .tree k _ _, .tree l _ _ => k == l
  | _, _ => false

/-- Whether a page home makes a request wait: it moves the page, or earlier requests stand in its queue (R385, R386). -/
def State.homeQueues (s : State) (key : Nat) (r : PageReq) : Bool :=
  s.pages.any fun p => p.holds key
    && (p.moving || (match p.queue.find? s.stillQueued with
      | some q => !q.same r
      | none => false))

/-- A request put into the queue of the home of its page, in arrival order. -/
def State.queueRequest (s : State) (key : Nat) (r : PageReq) : State :=
  { s with pages := s.pages.map fun p =>
      if p.holds key && !(p.queue.any fun q => q.same r && s.stillQueued q)
      then { p with queue := p.queue.filter (fun q => s.stillQueued q && !q.same r) ++ [r] } else p }

/-- After a turn that began in s, in which a request was made: where it was its turn, it leaves the queue. -/
def State.letThrough (t s : State) (r : PageReq) : State :=
  if s.pages.isEmpty then t
  else { t with pages := t.pages.map fun p =>
      if s.pages.any fun q => q.frame == p.frame && !q.moving && (q.queue.find? s.stillQueued).any fun o => o.same r
      then { p with queue := p.queue.filter fun o => !o.same r } else p }

/-! ### The stagehands' accesses (R281, R384, R385, R395) -/

/-- Whether the homes of some stretches let the stagehands of a package read and write there at once: no page of them moves or has
requests queued, and no route to them waits. -/
def State.stageFree (s : State) (p : Nat) (ks : List (Nat × Nat)) : Bool :=
  ks.all fun k => s.routeTo p 8 k.1 != .waits
    && !s.pages.any fun h => h.frame < k.1 + k.2 && k.1 < h.frame + (if h.small then 2 ^ 10 else 2 ^ 21)
      && (h.moving || h.queue.any s.stillQueued)

/-- Whether the stagehands of a package may read some stretches of memory for a kernel: a correctable error there is corrected
and logged, and an uncorrectable one, or a stretch that no route reaches, is a machine check, which ends what they do. -/
def State.stageScan (s : State) (p kid : Nat) (ks : List (Nat × Nat)) : Bool × State :=
  ks.foldl (fun (r : Bool × State) k =>
    if !r.1 then r
    else if r.2.routeTo p 8 k.1 = .none_ then (false, r.2.reportCheck kid (p * 4608) (r.2.undelivered (.stagehand p) k.1))
    else match r.2.checkRead (.stagehand p) k.1 k.2 with
      | .ok t => (true, t)
      | .error (.trap t) => (false, r.2.reportCheck kid (p * 4608) t)
      | .error _ => r) (true, s)

/-- A store by the stagehands of a package for a kernel, plain or scoped, at the page home or into its queue: a machine check ends
it before it writes. -/
def State.stageStore (s : State) (p kid key : Nat) (data : List Byte) (alone : Option Scope) : State :=
  if s.homeQueues key (.write (.stagehand p) key data alone) then s.queueRequest key (.write (.stagehand p) key data alone)
  else if s.routeTo p 8 key = .none_ then s.reportCheck kid (p * 4608) (s.undelivered (.stagehand p) key)
  else
    match s.checkWrite (.stagehand p) key data.length with
    | .ok t => (t.storeRec (.stagehand p) key (data.map some) alone none).inject key data.length
    | .error (.trap t) => s.reportCheck kid (p * 4608) t
    | .error _ => s

/-! ### A context's addresses -/

/-- The key that n bytes at an address have for the scalar or vector stream of the focused context: in the local window a scratchpad key, else the
translated physical address (R251, R14, R375, R381). R14 names loads, stores, atomics and bank transforms for the trap on a bound
context's register image, and no fetches: DEDUCED (log 25), a fetch there reads the scratchpad's stored bytes. -/
def State.resolve (s : State) (vec : Bool) (va : Word) (n : Nat) (k : Acc) : Act (Nat × State) :=
  let a := va.toNat
  if a ≥ 2 ^ 56 then trapAt 0x0B03 va
  else if a ≥ Config.windowBase then
    let off := a - Config.windowBase
    if off + n > Config.scratchpadBytes then trapAt 0x0500 (BitVec.ofNat 64 (Config.windowBase + max off Config.scratchpadBytes))
    else if k != .fetch && s.inImage s.coreId off n then trapAt 0x0500 va
    else .ok (spKey s.coreId off, s)
  else
    match s.translateFor s.self s.coreId a with
    | .error e => .error e
    | .ok (.fault, _) =>
      if s.slot.par.refused == some (s.slot.ipcOf vec, va) then trapAt 0x0B01 va
      else .error (.trap { cause := 0x0B00, addr := va, kind := k.code })
    | .ok (.violation, _) => trapAt 0x0B01 va
    | .ok (.leaf l, t) =>
      let key := l.phys a
      if !l.permits k then trapAt 0x0B01 va
      else if t.homeQueues key (t.asRequest vec) then .error (.hold fun s => s.queueRequest key (s.asRequest vec))
      else
        match t.passage t.self (pkgOf t.coreId) (dieOf t.coreId % 8) key with
        | .error e => .error e
        | .ok () => .ok (key, t.answered t.coreId a)

/-! ### Device windows (R391, R392, R415) -/

/-- A read of n bytes of I/O space by the scalar or vector stream: the register block reads as zero; elsewhere the
access waits for its completion (R416), whose data it takes. -/
def State.ioLoad (s : State) (vec : Bool) (key n : Nat) : Act (List Byte × State) :=
  if key / 2 ^ 46 % 8 = 7 then .ok (List.replicate n 0, s)
  else
    let io := if vec then s.slot.par.vio else s.slot.par.io
    match io.got.find? fun g => g.1 == key && g.2.length == n with
    | some g =>
      let io := { io with got := io.got.erase g }
      .ok (g.2, s.setPar (if vec then { s.slot.par with vio := io } else { s.slot.par with io := io }))
    | none =>
      match io.waiting with
      | some _ => blockOn .other
      | none =>
        .error (.hold fun s =>
          let p := s.slot.par
          s.setPar (if vec then { p with vio := { p.vio with waiting := some (key, n) } }
            else { p with io := { p.io with waiting := some (key, n) } }))

/-- A notify of a user queue that is not mapped is kept in SHADOW, the largest of those (R221). -/
def State.shadows (s : State) (p desc : Nat) (v : Word) : State :=
  let r := s.stageScan p 0 [(desc + 0x20, 8)]
  if !r.1 then r.2
  else
    let old := wordOf (Memory.bytes s.mem (desc + 0x20) 8)
    let new := if old.getLsbD 63 then max (field old 0 63) (field v 0 63) else field v 0 63
    r.2.stageStore p 0 (desc + 0x20) (toBytes 8 (2 ^ 63 + new)) none

/-- A notify of a value reaches a hardware queue slot (R215, R221, R393): a mapped queue's stagehands see it, and an
unmapped one's SHADOW keeps the largest, at its page home (R385). -/
def State.deliver (s : State) (p hq : Nat) (v : Word) : State :=
  let c := s.ctlAt p
  match (c.queues.find? fun q => q.1 == hq).map (·.2) with
  | none => s
  | some q =>
    if q.mapped then s.setCtl p { c with queues := assocSet hq { q with seen := max q.seen v.toNat } c.queues }
    else if s.homeQueues (q.desc + 0x20) (.notify p hq v) then s.queueRequest (q.desc + 0x20) (.notify p hq v)
    else s.shadows p q.desc v

/-- One write of chosen bytes to I/O space (R175): an aligned 8-byte write to a notify register delivers a notify (R393), other
writes to the register block have no effect (R392); a device window takes a posted write. -/
def State.ioStoreSome (s : State) (key : Nat) (bytes : List (Option Byte)) : State :=
  let p := key / 2 ^ 50 % 4
  if key / 2 ^ 46 % 8 = 7 then
    let off := key % 2 ^ 46
    if bytes.length = 8 && bytes.all (·.isSome) && off % 1024 = 0 && off < 0x40000 then
      s.deliver p (off / 1024) (wordOf (bytes.filterMap id))
    else s
  else
    let c := s.ctlAt p
    s.setCtl p { c with posted := c.posted ++ [(key, bytes)] }

/-- A write of bytes to I/O space. -/
def State.ioStore (s : State) (key : Nat) (data : List Byte) : State := s.ioStoreSome key (data.map some)

/-! ### Loads and stores of a context -/

/-- The vector loads that the focused context has pending return nothing later than the writes before number t to these
bytes, which its scalar load has read. -/
def State.bounding (s : State) (key n t : Nat) : State :=
  if s.slot.seq.entries.isEmpty then s
  else { s with ceilings := { by_ := s.self, pos := s.slot.pos, key := key, n := n, below := t }
                  :: s.ceilings.filter fun c => !(c.by_ == s.self && c.pos ≤ s.slot.seq.oldest) }

/-- The same for the acquire half of a scoped load of the focused context, which comes after them in curtain order too (R271). -/
def State.halved (s : State) : State :=
  if s.slot.seq.entries.isEmpty then s
  else { s with ceilings := { by_ := s.self, pos := s.slot.pos, key := 0, n := 0, below := s.seq, half := true }
                  :: s.ceilings.filter fun c => !(c.by_ == s.self && c.pos ≤ s.slot.seq.oldest) }

/-- The place of the first write to some bytes by another agent that follows, in that agent's order, a release half taken at place t or
after it, the half of a scoped store or atomic among them (R271). -/
def State.firstReleased (s : State) (key n t : Nat) : Nat :=
  ((s.hist.find? fun r => r.touches key n && r.by_ != s.self
      && (s.releases.any (fun h => h.by_ == r.by_ && t ≤ h.seq && h.seq < r.seq)
        || s.hist.any fun q => q.alone.isSome && q.by_ == r.by_ && t ≤ q.seq && q.seq < r.seq)).map (·.seq)).getD s.seq

/-- The place before which a ceiling keeps a load of some bytes. -/
def State.ceilingOf (s : State) (key n : Nat) (c : Ceiling) : Nat := if c.half then s.firstReleased key n c.below else c.below

/-- A plain load of a vector instance of the focused context that was offloaded at a position: bounded by what scalar loads
after it have read, and by the halves of those (R31, R271, R275). -/
def State.loadAt (s : State) (pos key n : Nat) : List Byte × State :=
  let mine := s.ceilings.filter fun c => c.by_ == s.self && pos < c.pos && (c.half || c.key < key + n && key < c.key + c.n)
  match mine with
  | [] => s.loadPlain s.self key n
  | c :: cs => s.loadBelow s.self key n (cs.foldl (fun t d => min t (s.ceilingOf key n d)) (s.ceilingOf key n c))

/-- Whether bytes lie in a READY tile that a pending vldt of the focused context reads. -/
def State.underTile (s : State) (key n : Nat) : Bool :=
  isScratch key && s.slot.seq.entries.any fun e => e.op == .ldt && (match e.x.oa with
    | .t t =>
      let h := s.tteHome s.coreId t.val
      let h' := s.tteAt h.1 h.2
      let first := spKey h.1 (tteOff h')
      tteSt h' == 2 && first < key + n && key < first + tteLen h'
    | _ => false)

/-- A plain load of the focused context (R117, R175). One of the scalar stream that reads while vector loads before it are
pending bounds them, and those return nothing later (R31, R275); what a pending vldt will find in a READY tile counts for it
(R31, R274). -/
def State.loadOwn (s : State) (vec : Bool) (key n : Nat) : List Byte × State :=
  if vec then s.loadAt s.slot.seq.offloadedAt key n
  else
    let s := if s.underTile key n then s.tileSeen s.self key n else s
    let r := s.loadPoint s.self key n
    (r.1, r.2.2.bounding key n r.2.1)

/-- The writes to some bytes, oldest first, that an `ldx.d` at `sys` might have missed at the acceptance of a kernel, whose place in
coherence order is t: those after the last that stood at the home, or that the acceptance makes count for the context in slot 0 of
the kernel's first core (R121, R264, R422). -/
def State.launchNewer (s : State) (kid t key n : Nat) : List WriteRec :=
  let first : Agent := .ctx kid (((s.kernelAt kid).bind fun k => k.coreOf 0).getD 0) 0
  let rels := s.releases.filter fun h => h.seq < t
  newerThan (fun r => r.atHome rels first .sys key || r.atLaunch (s.joinedFor first) s.releases (some t) first)
    (s.hist.filter fun r => r.touches key n && r.seq < t)

/-- An invariant load outside the local window (R264). Where no agent has written the bytes since the kernel's acceptance, what an
`ldx.d` at `sys` would have returned then: where the rules leave that load several writes, one of them for every such load of the
kernel, DESIGN CHOICE, a free value (log 7), which a move of the page leaves as it is. Otherwise any value that the bytes have held since the acceptance. -/
def State.loadInvariant (s : State) (c : Agent) (key n : Nat) : List Byte × State :=
  let t := (s.acceptedOf c).getD 0
  let rs := s.hist.filter fun r => r.touches key n && t ≤ r.seq
  let now := Memory.bytes s.mem key n
  if rs.isEmpty then
    match s.launchNewer c.kid t key n with
    | [] => (now, s)
    | r :: rs => (undoNewest now key (Config.launchView t r.seq (r.first + key - r.addr) % (rs.length + 2)) (r :: rs), s)
  else (undoNewest now key (Config.freeView s.free % (rs.length + 1)) rs, s.drew)

/-- Reading n bytes at a key by the focused context. A scoped load follows an acquire half at its scope for its own
location alone (R271 item 3), and reads at the location's home (R121); an invariant one in the local window is a plain one (R264). -/
def State.loadKey (s : State) (vec : Bool) (m : LoadMode) (key n : Nat) : List Byte × State :=
  match m with
  | .plain => s.loadOwn vec key n
  | .invariant => if isScratch key then s.loadOwn vec key n else s.loadInvariant s.self key n
  | .tile => (s.tileSeen s.self key n).loadOwn vec key n
  | .scoped x => ((s.acquireOf s.self x fun r => r.touches key n).homeSeen s.self x key n).halved.loadOwn vec key n

/-- A load of n bytes at an address by the focused context. -/
def State.load (s : State) (vec : Bool) (m : LoadMode) (va : Word) (n : Nat) : Act (List Byte × State) := do
  let (key, s) ← s.resolve vec va n .load
  if isIo key then s.ioLoad vec key n
  else
    let s ← s.checkRead s.self key n
    .ok (s.loadKey vec m key n)

/-- Writing bytes at a key by an agent, with protection and injection. -/
def State.storeKey (s : State) (c : Agent) (key : Nat) (data : List Byte) (alone : Option Scope) : Act State := do
  let s ← s.checkWrite c key data.length
  .ok ((s.storeRec c key (data.map some) alone none).inject key data.length)

/-- A store of bytes at an address by the scalar stream of the focused context. -/
def State.storeVa (s : State) (va : Word) (data : List Byte) (alone : Option Scope) : Act State := do
  let (key, s) ← s.resolve false va data.length .store
  if isIo key then .ok (s.ioStore key data) else s.storeKey s.self key data alone

/-- A scalar load's register value: n bytes at an aligned address (R117, R118). -/
def State.loadWord (s : State) (m : LoadMode) (va : Word) (n : Nat) : Act (Word × State) := do
  require (va.toNat % n == 0) 0x0200 va
  let (bs, s) ← s.load false m va n
  .ok (wordOf bs, s)

/-- A scalar store of the low n bytes of a value at an aligned address (R117, R118). -/
def State.storeWord (s : State) (alone : Option Scope) (va : Word) (n : Nat) (x : Word) : Act State := do
  require (va.toNat % n == 0) 0x0200 va
  s.storeVa va (toBytes n x.toNat) alone

/-- Sign extension of the low n bytes. -/
def sextBytes (n : Nat) (x : Word) : Word :=
  match n with
  | 1 => (x.setWidth 8).signExtend 64
  | 2 => (x.setWidth 16).signExtend 64
  | 4 => (x.setWidth 32).signExtend 64
  | _ => x

end Sys2Proof.Machine
end

