-- ==== Sys2Proof/Machine/Operands.lean ====
section
/-! DEFINITION. Bands and neighbours (R185, R211), and the operands: scalar registers, queues and links as
sources and destinations (R18, R102, R211-R213, R247). -/

namespace Sys2Proof.Machine

/-! ### The focused context's place in its grid (R185) -/

/-- The focused slot's kernel. -/
def State.kernel (s : State) : Option Kernel := s.kernelAt s.slot.par.kid

/-- The band of the focused context (R185). -/
def State.band (s : State) : Option Band :=
  match s.kernel with
  | some k => if k.cols = 0 then none else k.bandOf (s.slot.vcore.toNat / k.cols)
  | none => none

/-- The neighbour of a core in a direction on its die (R185: north the lower row, east the higher column). -/
def neighbour (core : Nat) (d : Dir) : Option Nat :=
  match d with
  | .n => if rowOf core = 0 then none else some (core - 24)
  | .s => if rowOf core = 23 then none else some (core + 24)
  | .e => if colOf core = 23 then none else some (core + 1)
  | .w => if colOf core = 0 then none else some (core - 1)

/-- Whether a core lies in a band's rectangle (R185). -/
def bandHolds (b : Band) (cols core : Nat) : Bool :=
  b.y0 ≤ rowOf core && rowOf core < b.y0 + b.height && b.x0 ≤ colOf core && colOf core < b.x0 + cols

/-- The neighbour inside the focused context's link rectangle (R211, R212). -/
def State.linkNeighbour (s : State) (d : Dir) : Option Nat :=
  match s.band, s.kernel, neighbour s.coreId d with
  | some b, some k, some c => if bandHolds b k.cols c then some c else none
  | _, _, _ => none

/-- The direction opposite to one: a write east fills the neighbour's W slot (R211). -/
def opposite : Dir → Dir
  | .n => .s
  | .s => .n
  | .e => .w
  | .w => .e

/-- The number of a direction (R56). -/
def dirIndex (d : Dir) : Fin 4 := Fin.ofNat 4 d.code.toNat

/-! ### Links -/

/-- R212: a link operand off the rectangle traps with off-mesh direction, then one without the claim. -/
def State.linkCheck (s : State) (d : Dir) : Act Unit :=
  if (s.linkNeighbour d).isNone then trapOf 0x0806
  else if s.core.claim != some s.slotId then trapOf 0x0807
  else .ok ()

/-- R212 for each link among some operands, in order: before any effect. -/
def State.linksOk (s : State) : List Dir → Act Unit
  | [] => .ok ()
  | d :: ds => do
    s.linkCheck d
    s.linksOk ds

/-- The values that the focused context has taken from a link, first taken first (R247; log 13). -/
def State.takenFrom (s : State) (d : Dir) : List VReg :=
  s.slot.par.taken.filterMap fun t => if t.1 = (dirIndex d).val then some t.2 else none

/-- The values taken from links without the first of one. -/
def withoutFirst (d : Dir) (l : List (Nat × VReg)) : List (Nat × VReg) := l.eraseP fun t => t.1 == (dirIndex d).val

/-- Reading a link: the first value taken from it, or else it stalls until its slot is present, and clears it (R211). -/
def State.readLink (s : State) (d : Dir) : Act (VReg × State) := do
  s.linkCheck d
  match (s.takenFrom d).head? with
  | some v => .ok (v, s.setPar { s.slot.par with taken := withoutFirst d s.slot.par.taken })
  | none =>
    match s.core.links[dirIndex d] with
    | some v => .ok (v, { s with core := { s.core with links := s.core.links.set (dirIndex d) none } })
    | none => blockOn .other

/-- An instruction that reads one link several times, in the fields that name these links, takes every value but the last and waits
for that (R247; log 13). -/
def State.twiceCheck (s : State) (links : List Dir) : Act Unit :=
  match links with
  | [] => .ok ()
  | d :: ds =>
    if (s.takenFrom d).length < ds.count d then do
      s.linkCheck d
      match s.core.links[dirIndex d] with
      | some v => .error (.hold fun s => { s with
          slot := { s.slot with par := { s.slot.par with taken := s.slot.par.taken ++ [((dirIndex d).val, v)] } }
          core := { s.core with links := s.core.links.set (dirIndex d) none } })
      | none => blockOn .other
    else State.twiceCheck s ds

/-- The value of a link that n fields of the instruction before this one do not take; it is kept until the instruction completes
(R247). -/
def State.peekLink (s : State) (d : Dir) (n : Nat) : Act VReg := do
  s.linkCheck d
  match (s.takenFrom d)[n]? with
  | some v => .ok v
  | none =>
    match s.core.links[dirIndex d] with
    | some v => .ok v
    | none => blockOn .other

/-- The first value of a link is gone: one that has been taken, or else the slot's. -/
def State.dropped (s : State) (d : Dir) : State :=
  if (s.takenFrom d).isEmpty then { s with core := { s.core with links := s.core.links.set (dirIndex d) none } }
  else s.setPar { s.slot.par with taken := withoutFirst d s.slot.par.taken }

/-- The links that an instruction read, one for each field, lose those values as it completes (R247). -/
def State.emptied (s : State) (ds : List Dir) : State := ds.foldl State.dropped s

/-- Writing a link: it stalls while the neighbour's slot is present (R211). -/
def State.writeLink (s : State) (d : Dir) (v : VReg) : Act State := do
  s.linkCheck d
  match s.linkNeighbour d with
  | none => trapOf 0x0806
  | some c =>
    let k := s.coreAt c
    let i := dirIndex (opposite d)
    if (k.links[i]).isSome then blockOn .other else .ok (s.setCore c { k with links := k.links.set i (some v) })

/-! ### Scalar operands (R18) -/

/-- Whether a scalar operand may be read, and written (R18). -/
def readable : SOpd → Bool
  | .q n => n ≥ 2
  | _ => true
def writable : SOpd → Bool
  | .q n => n < 2
  | _ => true
/-- Whether an operand names a queue (R39). -/
def namesQueue : SOpd → Bool
  | .q _ => true
  | _ => false

/-- The links among some operands, in order. -/
def linksOf (os : List SOpd) : List Dir := os.filterMap fun o => match o with | .link d => some d | _ => none

/-- Reading a scalar source: a register, a pop of q2 or q3, or a link (R18, R102). -/
def State.readS (s : State) (o : SOpd) : Act (Word × State) :=
  match o with
  | .w n => .ok (wGet s.slot.w n, s)
  | .q n =>
    if n < 2 then trapOf 0x0102
    else if n = 2 then
      match s.slot.q2 with
      | [] => blockOn (.queue 2)
      | x :: xs => .ok (x, { s with slot := { s.slot with q2 := xs, pops := s.slot.pops ++ [{ pos := s.slot.pos, third := false, val := x }] } })
    else
      match s.slot.q3 with
      | [] => blockOn (.queue 3)
      | x :: xs => .ok (x, { s with slot := { s.slot with q3 := xs, pops := s.slot.pops ++ [{ pos := s.slot.pos, third := true, val := x }] } })
  | .link d => do
    let (v, s) ← s.readLink d
    .ok (v.setWidth 64, s)

/-- Writing a scalar destination: a register, a push to q0 or q1, or a link (R18, R102). -/
def State.writeS (s : State) (o : SOpd) (x : Word) : Act State :=
  match o with
  | .w n => .ok { s with slot := { s.slot with w := wSet s.slot.w n x } }
  | .q n =>
    if n ≥ 2 then trapOf 0x0102
    else if n = 0 then
      if s.slot.q0.length ≥ 8 then blockOn (.queue 0)
      else .ok { s with slot := { s.slot with q0 := s.slot.q0 ++ [{ val := x, at_ := s.slot.here }] } }
    else
      if s.slot.q1.length ≥ 8 then blockOn (.queue 1)
      else .ok { s with slot := { s.slot with q1 := s.slot.q1 ++ [{ val := x, at_ := s.slot.here }] } }
  | .link d => s.writeLink d (x.setWidth 1024)

/-- A state in which the operands that an instruction has read since another state are unread. -/
def State.unread (t s : State) : State :=
  { t with
    slot := { t.slot with q2 := s.slot.q2, q3 := s.slot.q3, pops := s.slot.pops, par := { t.slot.par with taken := s.slot.par.taken } }
    core := { t.core with links := s.core.links } }

/-! ### The checks of decoding (R57) -/

/-- The scalar operand of a specifier, if it is of scalar class (R52). -/
def scalarOf : Spec → Option SOpd
  | .s o => some o
  | _ => none

/-- Whether a used specifier is a scalar source, and a scalar destination (R52, R55, R18). -/
def srcSpec (p : Spec) : Bool := match p with | .s o => readable o | _ => false
def dstSpec (p : Spec) : Bool := match p with | .s o => writable o | _ => false

/-- Whether a vector operand may be read, and written (R19). -/
def vReadable : VOpd → Bool
  | .v _ => true
  | .q n => n < 2
  | .link _ => true
  | .rsv _ => false
def vWritable : VOpd → Bool
  | .v _ => true
  | .q n => n ≥ 2
  | .link _ => true
  | .rsv _ => false

/-- Whether a used specifier is a vector source, and a vector destination. -/
def vsrcSpec (p : Spec) : Bool := match p with | .v o => vReadable o | _ => false
def vdstSpec (p : Spec) : Bool := match p with | .v o => vWritable o | _ => false

/-- Whether a specifier names a queue (R39). -/
def specQueue (p : Spec) : Bool :=
  match p with
  | .s (.q _) => true
  | .v (.q _) => true
  | _ => false

/-- What the decoding checks of R57 items 2 to 6 find in an instruction. -/
structure Checks where
  /-- the instruction takes formats (R61) -/
  formats : Bool := false
  /-- a reserved field that the cue shows (0x0101) -/
  reserved : Bool := false
  /-- a reserved operand (0x0102) -/
  operand : Bool := false
  /-- a misaligned pair (0x0105) -/
  pair : Bool := false
  /-- it names a queue (0x0108 during an upcall) -/
  queue : Bool := false
  deriving DecidableEq, Repr

/-- The first decoding trap that applies (R57). -/
def State.decodeTrap (s : State) (c : Checks) : Act Unit :=
  if c.reserved then trapOf 0x0101
  else if pp s.slot.status && !c.formats then trapOf 0x0103
  else if c.operand then trapOf 0x0102
  else if c.pair then trapOf 0x0105
  else if c.queue && up s.slot.status then trapOf 0x0108
  else .ok ()

/-- The checks of an instruction with these scalar sources and destinations. -/
def scalarChecks (srcs dsts : List SOpd) : Checks :=
  { operand := !(srcs.all readable && dsts.all writable), queue := (srcs ++ dsts).any namesQueue }

end Sys2Proof.Machine
end

