-- ==== Sys2Proof/Machine/Tiles.lean ====
section
/-! DEFINITION. The tile table (R255-R260): the fields of an entry, homes and windows, and the checks that an
instruction naming a tile makes. -/

namespace Sys2Proof.Machine

/-- The tiles that a matrix operand names. -/
def MxSource.tiles : MxSource → List (Nat × Nat)
  | .tile c e => [(c, e)]
  | _ => []

/-- The home entries of the tiles that a matrix command of a core names. -/
def State.mxTiles (s : State) (core : Nat) : MxOp → List (Nat × Nat)
  | .zero e _ _ => [s.tteHome core e]
  | .loadB src scales _ _ _ _ _ _ _ _ => src.tiles ++ scales.tiles
  | .streamA src scales _ _ _ _ _ _ _ e _ _ => s.tteHome core e :: (src.tiles ++ scales.tiles)
  | .convert e _ _ dst _ _ _ _ => [s.tteHome core e, s.tteHome core dst]
  | .release => []

/-- The home entries of the tiles that a copy command names. -/
def XCmd.tiles (c : XCmd) : List (Nat × Nat) := c.targets.map fun t => (t.core, t.entry)

/-- Whether a command that has not completed, other than the one of a given number, names a tile (R324). -/
def State.tileNamed (s : State) (home : Nat × Nat) (but : Nat) : Bool :=
  (List.range 16).any fun p =>
    let c := clusterMate home.1 p
    let k := s.coreAt c
    k.mx.queue.any (fun q => q.from_.id != but && (s.mxTiles c q.op).contains home)
      || k.xq.any (fun q => q.from_.id != but && q.tiles.contains home)

/-- Whether a command that has not begun names a tile: FO (R255). -/
def State.tileQueued (s : State) (home : Nat × Nat) : Bool :=
  (List.range 16).any fun p =>
    let c := clusterMate home.1 p
    let k := s.coreAt c
    k.mx.queue.any (fun q => (s.mxTiles c q.op).contains home)
      || k.xq.any (fun q => q.targets.any fun t => (t.core, t.entry) == home && !t.begun)

/-- Whether a command of a context that has not completed names a tile (R324). -/
def State.tileLocked (s : State) (home : Nat × Nat) (ident : Nat) : Bool :=
  (List.range 16).any fun p =>
    let c := clusterMate home.1 p
    let k := s.coreAt c
    k.mx.queue.any (fun q => q.from_.ident == ident && (s.mxTiles c q.op).contains home)
      || k.xq.any (fun q => q.from_.ident == ident && q.tiles.contains home)

/-- The home entry of an entry's buffer, with FO as the queues give it. -/
def State.homeEntry (s : State) (c n : Nat) : Word :=
  let h := s.tteHome c n
  setBit (s.tteAt h.1 h.2) 61 (s.tileQueued h)

/-- What `mfcr` reads of an entry: ST and FO are its home entry's (R259). -/
def State.tteValue (s : State) (c n : Nat) : Word :=
  let h := s.homeEntry c n
  setBit (setField (s.tteAt c n) 62 2 (tteSt h)) 61 (tteFo h)

/-- R259 step 1: the entry belongs to the kernel and the core holds the buffer. -/
def State.ownsTile (s : State) (c : Nat) (tag : BitVec 10) (n : Nat) : Bool :=
  s.tteTagAt c n == tag && tag != 0 && tteHeld (s.tteAt c n)

/-- R259 on an entry of the focused core: not owner; READY; a stall that counts EVC9 (log 5); tile-not-armed. -/
def State.tileArmed (s : State) (n : Nat) : Act Unit :=
  if !s.ownsTile s.coreId s.slot.tag n then trapOf 0x0901
  else
    let h := s.homeEntry s.coreId n
    match tteSt h with
    | 2 => .ok ()
    | 0 => if tteFo h then .error (.hold fun s => s.count 9 (Config.freeCycles s.free)) else trapOf 0x0900
    | _ => .error (.hold fun s => s.count 9 (Config.freeCycles s.free))

/-- R259, and the wait for the context's own commands that name the tile (R324). -/
def State.tileReady (s : State) (n : Nat) : Act Unit := do
  s.tileArmed n
  if s.tileLocked (s.tteHome s.coreId n) s.slot.par.ident then blockOn .other else .ok ()

/-- n events of counter i on any core. -/
def State.countOn (s : State) (c i n : Nat) : State :=
  if n = 0 then s else let k := s.coreAt c; s.setCore c { k with evc := countIn k.evc i n }

/-- The cycles beyond one that an access group of scratchpad words needs: the most words in one bank, less one (R252,
R253). -/
def bankConflicts (offsets : List Nat) : Nat :=
  let ws := (offsets.map (· / 8)).eraseDups
  let most := ws.foldl (fun m w => max m ((ws.filter fun x => x % 192 == w % 192).length)) 0
  most - 1

/-- Counting an access group in the EVC8 of each core whose banks it uses (R253). -/
def State.countGroup (s : State) (keys : List Nat) : State :=
  let sp := keys.filter isScratch
  ((sp.map keyCore).eraseDups).foldl
    (fun s c => s.countOn c 8 (bankConflicts ((sp.filter fun k => keyCore k == c).map keyOffset))) s

end Sys2Proof.Machine
end

