-- ==== Sys2Proof/Machine/Lanes.lean ====
section
/-! DEFINITION. Lanes, masks and the operands of a vector instance (R19, R20, R140-R143, R145). -/

namespace Sys2Proof.Machine

/-! ### Lanes -/

/-- The lanes of w bits of a register, lane 0 first (R142). -/
def lanesOf (w : Nat) (v : VReg) : List Nat := (List.range (1024 / w)).map fun i => v.toNat / 2 ^ (w * i) % 2 ^ w

/-- One lane. -/
def laneAt (w : Nat) (v : VReg) (i : Nat) : Nat := v.toNat / 2 ^ (w * i) % 2 ^ w

/-- A number whose w-bit digits these are, lane 0 first. -/
def packNat (w : Nat) : List Nat → Nat
  | [] => 0
  | x :: xs => x % 2 ^ w + 2 ^ w * packNat w xs

/-- A register made of lanes. -/
def ofLanes (w : Nat) (xs : List Nat) : VReg := BitVec.ofNat 1024 (packNat w xs)

/-- Bits of a width suffix (R142). -/
def wBits (t : WType) : Nat :=
  match t with
  | .b => 8
  | .h => 16
  | .w => 32
  | .d => 64

/-- The format of a lane type suffix (R144). -/
def fOf (t : FType) : FpFmt :=
  match t with
  | .f32 => fp32
  | .bf16 => bf16
  | .f16 => fp16

/-- The width of the width selector WS (R159). -/
def wsBits (ws : Nat) : Nat :=
  match ws % 4 with
  | 0 => 32
  | 1 => 16
  | 2 => 8
  | _ => 64

/-! ### What an instance is given -/

/-- Whether the element that mask bit i governs is active (R20, R142). -/
def Entry.active (e : Entry) (i : Nat) : Bool := !e.x.me || e.mask.getLsbD i

/-- Fields of the entry's cue (R127); all zero without one. -/
def Entry.cueField (e : Entry) (lo n : Nat) : Nat :=
  match e.cue with
  | some c => c.toNat / 2 ^ lo % 2 ^ n
  | none => 0

/-- The cue's saturate bit. -/
def Entry.sat (e : Entry) : Bool := e.cueField 15 1 == 1

/-- Whether the mode in force is RDN, which gives exact zero sums their sign (R87). -/
def Entry.rdn (e : Entry) : Bool := e.rm == .rdn

/-- What an instance does: the state after it and the events of its elements. -/
abbrev Inst := Act (State × List Ev)

/-! ### Vector operands -/

/-- Popping q0 or q1 by the vector stream (R29). -/
def State.popVector (s : State) (n : Fin 4) : Act (Word × State) :=
  if n = 0 then
    match s.slot.q0 with
    | [] => blockOn (.queue 0)
    | x :: xs => .ok (x.val, { s with slot := { s.slot with q0 := xs } })
  else if n = 1 then
    match s.slot.q1 with
    | [] => blockOn (.queue 1)
    | x :: xs => .ok (x.val, { s with slot := { s.slot with q1 := xs } })
  else trapOf 0x0102

/-- Reading a vector source at an element width: a register, an entry of q0 or q1 whose low bits go to every
element (R19), or a link. -/
def State.readV (s : State) (p : Spec) (w : Nat) : Act (VReg × State) :=
  match p with
  | .v (.v n) => .ok (s.slot.v[n], s)
  | .v (.q n) => do
    let (x, s) ← s.popVector n
    .ok (ofLanes w (List.replicate (1024 / w) (x.toNat % 2 ^ w)), s)
  | .v (.link d) => s.readLink d
  | _ => trapOf 0x0102

/-- The old value of a destination: a register has one, a queue view or link has none (R145, R247). -/
def State.oldV (s : State) (p : Spec) : Option VReg :=
  match p with
  | .v (.v n) => some s.slot.v[n]
  | _ => none

/-- Writing a vector destination: a register, bits [63:0] pushed to q2 or q3 (R19), or a link whole (R247). -/
def State.writeV (s : State) (p : Spec) (v : VReg) : Act State :=
  match p with
  | .v (.v n) => .ok { s with slot := { s.slot with v := s.slot.v.set n v } }
  | .v (.q n) =>
    if n = 2 then
      if s.slot.q2.length ≥ 4 then blockOn (.queue 2) else .ok { s with slot := { s.slot with q2 := s.slot.q2 ++ [v.setWidth 64] } }
    else if n = 3 then
      if s.slot.q3.length ≥ 4 then blockOn (.queue 3) else .ok { s with slot := { s.slot with q3 := s.slot.q3 ++ [v.setWidth 64] } }
    else trapOf 0x0102
  | .v (.link d) => s.writeLink d v
  | _ => trapOf 0x0102

/-- Register number of a pair operand's odd half. -/
def oddOf (p : Spec) : Spec :=
  match p with
  | .v (.v n) => .v (.v (Fin.ofNat 16 (n.val + 1)))
  | q => q

/-- The vector links that an instance reads, in order, for an instruction that names one twice (R247). -/
def vlinks (ps : List Spec) : List Dir := ps.filterMap fun p => match p with | .v (.link d) => some d | _ => none

/-- The address operand of a vector memory instance: a register as read at offload, or an entry of q0 or q1 popped by
each instance (R169). -/
def State.vaddr (s : State) (e : Entry) (p : Spec) : Act (Word × State) :=
  match p with
  | .s (.q n) => s.popVector n
  | _ => .ok (e.sa, s)

/-- The third source under the addend rule (R145): OC, or the old destination when OC is 0. It comes before A when
the destination supplies it (R140). -/
def Entry.addendIsOld (e : Entry) : Bool := e.x.oc == Spec.zero

/-! ### Results -/

/-- Elements of w bits: those that `f` gives and, where it gives none, the old elements or zero (R20). A queue view has no
old elements: they are 0 (DESIGN CHOICE, log 48), as R247 says of a link. -/
def mergeElems (e : Entry) (w : Nat) (old : Option VReg) (f : Nat → Option Nat) : VReg :=
  let o : List Nat := if e.x.z then List.replicate (1024 / w) 0 else lanesOf w (old.getD 0)
  ofLanes w (o.mapIdx fun i x => (f i).getD x)

/-- Writing lanes of w bits: `f i` for each active lane i, with its events (R20, R142). -/
def State.writeLanes (s : State) (e : Entry) (w : Nat) (f : Nat → Out) : Inst := do
  let res := (List.range (1024 / w)).map fun i => if e.active i then some (f i) else none
  let v := mergeElems e w (s.oldV e.x.od) fun i => (res.getD i none).map (·.code)
  let s ← s.writeV e.x.od v
  .ok (s, res.filterMap fun o => o.map (·.ev))

/-- An operation of one vector source on lanes of w bits. -/
def lanewise1 (w : Nat) (f : Entry → Nat → Out) (e : Entry) (s : State) : Inst := do
  let (a, s) ← s.readV e.x.oa w
  let xs := lanesOf w a
  s.writeLanes e w fun i => f e (xs.getD i 0)

/-- An operation of two vector sources on lanes of w bits. -/
def lanewise2 (w : Nat) (f : Entry → Nat → Nat → Out) (e : Entry) (s : State) : Inst := do
  s.twiceCheck (vlinks [e.x.oa, e.x.ob])
  let (a, s) ← s.readV e.x.oa w
  let (b, s) ← s.readV e.x.ob w
  let xs := lanesOf w a
  let ys := lanesOf w b
  s.writeLanes e w fun i => f e (xs.getD i 0) (ys.getD i 0)

/-- An operation of two vector sources and a third by the addend rule, on lanes of w bits (R140, R145). -/
def lanewise3 (w : Nat) (f : Entry → Nat → Nat → Nat → Out) (e : Entry) (s : State) : Inst := do
  s.twiceCheck (vlinks ([e.x.oa, e.x.ob] ++ (if e.addendIsOld then [] else [e.x.oc])))
  let (a, s) ← s.readV e.x.oa w
  let (b, s) ← s.readV e.x.ob w
  let (c, s) ← if e.addendIsOld then .ok ((s.oldV e.x.od).getD 0, s) else s.readV e.x.oc w
  let xs := lanesOf w a
  let ys := lanesOf w b
  let zs := lanesOf w c
  s.writeLanes e w fun i => f e (xs.getD i 0) (ys.getD i 0) (zs.getD i 0)

/-- A code with no events. -/
def plainOut (x : Nat) : Out := ⟨x, 0⟩

/-- Two's complement of a lane. -/
def asInt (w x : Nat) : Int := if x ≥ 2 ^ (w - 1) then (x : Int) - 2 ^ w else x

/-- Writing the scalar destination of a vector instance (R141). -/
def State.writeScalarDest (s : State) (p : Spec) (x : Word) : Act State :=
  match p with
  | .s (.w n) => .ok { s with slot := { s.slot with w := wSet s.slot.w n x } }
  | _ => trapOf 0x0102

/-- The scalar register that a destination names, as it stands. -/
def State.scalarOld (s : State) (p : Spec) : Word :=
  match p with
  | .s (.w n) => wGet s.slot.w n
  | _ => 0

/-- The odd half of a scalar pair. -/
def oddScalar (p : Spec) : Spec :=
  match p with
  | .s (.w n) => .s (.w (Fin.ofNat 24 (n.val + 1)))
  | q => q

end Sys2Proof.Machine
end

