-- ==== Sys2Proof/Machine/VArith.lean ====
section
/-! DEFINITION. Instances of the floating-point, packed FP8, pair and reduction instructions (R144-R155). -/

namespace Sys2Proof.Machine

/-! ### VFP (R144-R146) -/

/-- A floating-point operation on exact values, rounded once under the instance's mode and FZ (R144, R90). -/
def fpOp2 (t : FType) (f : Entry → FVal → FVal → FVal) (e : Entry) (a b : Nat) : Out :=
  let g := fOf t
  let x := g.read e.fz a
  let y := g.read e.fz b
  let o := g.round e.rm e.fz false (f e x.1 y.1)
  { o with ev := o.ev ||| x.2 ||| y.2 }

/-- The same with a third operand. -/
def fpOp3 (t : FType) (f : Entry → FVal → FVal → FVal → FVal) (e : Entry) (a b c : Nat) : Out :=
  let g := fOf t
  let x := g.read e.fz a
  let y := g.read e.fz b
  let z := g.read e.fz c
  let o := g.round e.rm e.fz false (f e x.1 y.1 z.1)
  { o with ev := o.ev ||| x.2 ||| y.2 ||| z.2 }

/-- vadd: a + b. -/
def instAdd (t : FType) : Entry → State → Inst := lanewise2 (fOf t).width (fpOp2 t fun e a b => a.add e.rdn b)
/-- vsub: a − b. -/
def instSub (t : FType) : Entry → State → Inst := lanewise2 (fOf t).width (fpOp2 t fun e a b => a.add e.rdn b.negate)
/-- vmul: a × b. -/
def instMul (t : FType) : Entry → State → Inst := lanewise2 (fOf t).width (fpOp2 t fun _ a b => a.mul b)
/-- vfma: a × b + c with one rounding. -/
def instFma (t : FType) : Entry → State → Inst :=
  lanewise3 (fOf t).width (fpOp3 t fun e a b c => (a.mul b).add e.rdn c)
/-- vfms: c − a × b with one rounding. -/
def instFms (t : FType) : Entry → State → Inst :=
  lanewise3 (fOf t).width (fpOp3 t fun e a b c => c.add e.rdn (a.mul b).negate)
/-- vmin (R146). -/
def instMin (t : FType) : Entry → State → Inst := lanewise2 (fOf t).width fun _ a b => pickCode (fOf t) false a b
/-- vmax (R146). -/
def instMax (t : FType) : Entry → State → Inst := lanewise2 (fOf t).width fun _ a b => pickCode (fOf t) true a b
/-- vabs: the sign bit cleared. -/
def instAbs (t : FType) : Entry → State → Inst := lanewise1 (fOf t).width fun _ a => plainOut (a % (fOf t).signBit)
/-- vneg: the sign bit inverted. -/
def instNeg (t : FType) : Entry → State → Inst :=
  lanewise1 (fOf t).width fun _ a => plainOut ((a + (fOf t).signBit) % (2 * (fOf t).signBit))

/-! ### VPK (R147, R100) -/

/-- The FP8 format of a suffix. -/
def f8Of (e : F8Type) : FpFmt :=
  match e with
  | .e4m3 => e4m3
  | .e5m2 => e5m2

/-- The four sub-element results of a 32-bit lane. -/
def packed4 (f : Nat → Out) : Nat × List Ev :=
  let os := (List.range 4).map f
  (packNat 8 (os.map (·.code)), os.map (·.ev))

/-- Byte j of a lane. -/
def byteOf (x j : Nat) : Nat := x / 2 ^ (8 * j) % 256

/-- A packed operation of three sources on 32-bit lanes, events per sub-element (R100, R147). -/
def packedOp (g : FpFmt) (f : FVal → FVal → FVal → FVal) (third : Bool) (e : Entry) (s : State) : Inst := do
  s.twiceCheck (vlinks ([e.x.oa, e.x.ob] ++ (if third && !e.addendIsOld then [e.x.oc] else [])))
  let (a, s) ← s.readV e.x.oa 32
  let (b, s) ← s.readV e.x.ob 32
  let (c, s) ← if !third || e.addendIsOld then .ok ((s.oldV e.x.od).getD 0, s) else s.readV e.x.oc 32
  let lane (i : Nat) : Nat × List Ev := packed4 fun j =>
    g.round e.rm false e.sat (f (g.decode (byteOf (laneAt 32 a i) j)) (g.decode (byteOf (laneAt 32 b i) j))
      (g.decode (byteOf (laneAt 32 c i) j)))
  let res := (List.range 32).map fun i => if e.active i then some (lane i) else none
  let v := mergeElems e 32 (s.oldV e.x.od) fun i => (res.getD i none).map (·.1)
  let s ← s.writeV e.x.od v
  .ok (s, (res.filterMap fun o => o.map (·.2)).flatten)

/-- vpadd. -/
def instPadd (t : F8Type) (e : Entry) : State → Inst := packedOp (f8Of t) (fun a b _ => a.add e.rdn b) false e
/-- vpsub. -/
def instPsub (t : F8Type) (e : Entry) : State → Inst := packedOp (f8Of t) (fun a b _ => a.add e.rdn b.negate) false e
/-- vpmul. -/
def instPmul (t : F8Type) (e : Entry) : State → Inst := packedOp (f8Of t) (fun a b _ => a.mul b) false e
/-- vpfma. -/
def instPfma (t : F8Type) (e : Entry) : State → Inst := packedOp (f8Of t) (fun a b c => (a.mul b).add e.rdn c) true e

/-! ### VPAIR (R148-R153) -/

/-- Writing a pair destination lane by lane (R148). -/
def State.writePairs (s : State) (e : Entry) (f : Nat → Pair) : Inst := do
  let res := (List.range 32).map fun i => if e.active i then some (f i) else none
  let hi := mergeElems e 32 (s.oldV e.x.od) fun i => (res.getD i none).map (·.hi)
  let lo := mergeElems e 32 (s.oldV (oddOf e.x.od)) fun i => (res.getD i none).map (·.lo)
  let s ← s.writeV e.x.od hi
  let s ← s.writeV (oddOf e.x.od) lo
  .ok (s, res.filterMap fun o => o.map (·.ev))

/-- A primitive of two single sources (R148). -/
def pairOp (f : Nat → Nat → Pair) (e : Entry) (s : State) : Inst := do
  s.twiceCheck (vlinks [e.x.oa, e.x.ob])
  let (a, s) ← s.readV e.x.oa 32
  let (b, s) ← s.readV e.x.ob 32
  s.writePairs e fun i => f (laneAt 32 a i) (laneAt 32 b i)

/-- vadd.x: twosum. -/
def instAddX : Entry → State → Inst := pairOp twosum
/-- vsub.x: twosum with b's sign inverted. -/
def instSubX : Entry → State → Inst := pairOp fun a b => twosum a (fneg b)
/-- vmul.x: twoprod. -/
def instMulX : Entry → State → Inst := pairOp twoprod

/-- The two registers of a pair source. -/
def State.readPair (s : State) (p : Spec) : Act ((VReg × VReg) × State) := do
  let (h, s) ← s.readV p 32
  let (l, s) ← s.readV (oddOf p) 32
  .ok ((h, l), s)

/-- A double-word operation of two pairs (R148). -/
def dwOp (f : Nat → Nat → Nat → Nat → Pair) (e : Entry) (s : State) : Inst := do
  let (a, s) ← s.readPair e.x.oa
  let (b, s) ← s.readPair e.x.ob
  s.writePairs e fun i => f (laneAt 32 a.1 i) (laneAt 32 a.2 i) (laneAt 32 b.1 i) (laneAt 32 b.2 i)

/-- vdwadd. -/
def instDwadd : Entry → State → Inst := dwOp dwadd
/-- vdwmul. -/
def instDwmul : Entry → State → Inst := dwOp dwmul

/-- vdwfma: the third pair by the addend rule (R145). -/
def instDwfma (e : Entry) (s : State) : Inst := do
  let (a, s) ← s.readPair e.x.oa
  let (b, s) ← s.readPair e.x.ob
  let (c, s) ← s.readPair (if e.addendIsOld then e.x.od else e.x.oc)
  s.writePairs e fun i => dwfma (laneAt 32 a.1 i) (laneAt 32 a.2 i) (laneAt 32 b.1 i) (laneAt 32 b.2 i) (laneAt 32 c.1 i)
    (laneAt 32 c.2 i)

/-- vdwround (R152): each pair rounded once to FP32; FZ is ignored. -/
def instDwround (e : Entry) (s : State) : Inst := do
  let (a, s) ← s.readPair e.x.oa
  s.writeLanes e 32 fun i =>
    fp32.round e.rm false false ((fp32.decode (laneAt 32 a.1 i)).add e.rdn (fp32.decode (laneAt 32 a.2 i)))

/-- The running sum, running error and events of a compensated sum (R153). -/
structure Comp where
  s : Nat
  c : Nat
  ev : Ev
  deriving DecidableEq, Repr

/-- The event of an infinity made from finite operands, which the sums count as pair-overflow (R151). -/
def newInf (operands : List Nat) (r : Nat) : Ev :=
  if isInf32 r && operands.all fun x => !isInf32 x && !isNan32 x then Ev.pairOverflow else 0

/-- fadd inside a compensated sum. -/
def compAdd (k : Comp) (x : Nat) : Comp :=
  let r := fadd k.c x
  { k with c := r, ev := k.ev ||| newInf [k.c, x] r }

/-- One step of vcsum. -/
def csumStep (k : Comp) (x : Nat) : Comp :=
  let p := twosum k.s x
  compAdd { k with s := p.hi, ev := k.ev ||| (p.ev &&& Ev.pairOverflow) } p.lo

/-- One step of vcdot on an active lane. -/
def cdotStep (k : Comp) (x y : Nat) : Comp :=
  let m := twoprod x y
  let p := twosum k.s m.hi
  let d := fadd p.lo m.lo
  compAdd { k with s := p.hi, ev := k.ev ||| (m.ev &&& (Ev.pairOverflow ||| Ev.pairInexact)) ||| (p.ev &&& Ev.pairOverflow)
                    ||| newInf [p.lo, m.lo] d } d

/-- The end of a compensated sum: one rounding, into lane 0 of the pair, the other lanes +0 (R153). -/
def State.writeComp (s : State) (e : Entry) (k : Comp) : Inst := do
  let p := twosum k.s k.c
  let ev := k.ev ||| (p.ev &&& Ev.pairOverflow) ||| (if isNan32 p.hi || isNan32 p.lo then Ev.nanMade else 0)
  let s ← s.writeV e.x.od (ofLanes 32 [p.hi])
  let s ← s.writeV (oddOf e.x.od) (ofLanes 32 [p.lo])
  .ok (s, [ev])

/-- The pair from which a compensated sum starts. -/
def State.startComp (s : State) (e : Entry) : Comp :=
  { s := laneAt 32 ((s.oldV e.x.od).getD 0) 0, c := laneAt 32 ((s.oldV (oddOf e.x.od)).getD 0) 0, ev := 0 }

/-- vcsum (R153). -/
def instCsum (e : Entry) (s : State) : Inst := do
  let (a, s) ← s.readV e.x.oa 32
  let k := (List.range 32).foldl (fun k i => csumStep k (if e.active i then laneAt 32 a i else 0)) (s.startComp e)
  s.writeComp e k

/-- vcdot (R153); an inactive lane gives twoprod (+0, +0). -/
def instCdot (e : Entry) (s : State) : Inst := do
  s.twiceCheck (vlinks [e.x.oa, e.x.ob])
  let (a, s) ← s.readV e.x.oa 32
  let (b, s) ← s.readV e.x.ob 32
  let k := (List.range 32).foldl
    (fun k i => if e.active i then cdotStep k (laneAt 32 a i) (laneAt 32 b i) else cdotStep k 0 0) (s.startComp e)
  s.writeComp e k

/-! ### VRED (R154, R155) -/

/-- A lane widened exactly to FP32 under FZ; an inactive lane contributes +0 (R154). -/
def widened (t : FType) (e : Entry) (a : VReg) (i : Nat) : FVal × Ev :=
  if e.active i then (fOf t).read e.fz (laneAt (fOf t).width a i) else (.fin false 0 0, 0)

/-- One accumulation step in FP32 under the mode and FZ (R154). -/
def accStep (e : Entry) (s x : FVal) : FVal × Ev :=
  let o := fp32.round e.rm e.fz false (s.add e.rdn x)
  (fp32.decode o.code, o.ev)

/-- vsum (R154): each of its events at most once for the instance. -/
def instSum (t : FType) (e : Entry) (s : State) : Inst := do
  let g := fOf t
  let (a, s) ← s.readV e.x.oa g.width
  let start := widened t e a 0
  let r := ((List.range (1024 / g.width)).drop 1).foldl
    (fun (k : FVal × Ev) i => let x := widened t e a i; let r := accStep e k.1 x.1; (r.1, k.2 ||| x.2 ||| r.2)) start
  let o := g.round e.rm e.fz false r.1
  let s ← s.writeV e.x.od (ofLanes g.width [o.code])
  .ok (s, [r.2 ||| o.ev])

/-- The results of vscan lane by lane: the prefix after each lane, rounded to the lane type, with the events of the
lane's own step and rounding. -/
def scanLanes (t : FType) (e : Entry) (a : VReg) : List Nat → Option FVal → List Out
  | [], _ => []
  | i :: is, acc =>
    let x := widened t e a i
    let r : FVal × Ev := match acc with
      | none => (x.1, 0)
      | some v => accStep e v x.1
    let o := (fOf t).round e.rm e.fz false r.1
    ⟨o.code, o.ev ||| x.2 ||| r.2⟩ :: scanLanes t e a is (some r.1)

/-- vscan (R154). -/
def instScan (t : FType) (e : Entry) (s : State) : Inst := do
  let w := (fOf t).width
  let (a, s) ← s.readV e.x.oa w
  let os := scanLanes t e a (List.range (1024 / w)) none
  s.writeLanes e w fun i => os.getD i ⟨0, 0⟩

/-- The largest or smallest of some codes under the order of R146, NaN passed over (R155). -/
def reduceCode (g : FpFmt) (wantMax : Bool) (xs : List Nat) : Out :=
  let ys := xs.filter fun x => !(g.decode x).isNan
  match ys with
  | [] => if xs.isEmpty then ⟨g.signed wantMax g.infCode, 0⟩ else ⟨g.nanCode, Ev.nanMade⟩
  | y :: ys => ⟨ys.foldl (fun m x => (pickCode g wantMax m x).code) y, 0⟩

/-- vrmax and vrmin (R155). -/
def reduceTo0 (t : FType) (wantMax : Bool) (e : Entry) (s : State) : Inst := do
  let g := fOf t
  let (a, s) ← s.readV e.x.oa g.width
  let xs := ((List.range (1024 / g.width)).filter e.active).map (laneAt g.width a)
  let o := reduceCode g wantMax xs
  let s ← s.writeV e.x.od (ofLanes g.width [o.code])
  .ok (s, [o.ev])

/-- vrmax. -/
def instRmax (t : FType) : Entry → State → Inst := reduceTo0 t true
/-- vrmin. -/
def instRmin (t : FType) : Entry → State → Inst := reduceTo0 t false

/-- The group size of a code of vgmax (R155). -/
def groupOf (code : Nat) : Nat := 8 * 2 ^ code

/-- A code that stands in an operand field (R155). -/
def codeOf (p : Spec) : Nat := match p with | .s o => o.bits.toNat | _ => 0

/-- vgmax (R155): the largest magnitude among the active lanes of each group; OB holds the code of the group size. -/
def instGmax (t : FType) (e : Entry) (s : State) : Inst := do
  let g := fOf t
  let (a, s) ← s.readV e.x.oa g.width
  let size := groupOf (codeOf e.x.ob)
  let mag (i : Nat) : Nat := laneAt g.width a i % g.signBit
  s.writeLanes e g.width fun i =>
    let xs := (((List.range size).map fun j => i / size * size + j).filter e.active).map mag
    if xs.any fun x => (g.decode x).isNan then ⟨g.nanCode, Ev.nanMade⟩ else ⟨xs.foldl max 0, 0⟩

end Sys2Proof.Machine
end

