-- ==== Sys2Proof/Machine/VInt.lean ====
section
/-! DEFINITION. Instances of the integer, compare and select instructions (R156-R159). -/

namespace Sys2Proof.Machine

/-! ### VINT (R156) -/

/-- An integer lane operation, which counts nothing. -/
def intOp2 (t : WType) (f : Nat → Nat → Nat → Nat) : Entry → State → Inst :=
  lanewise2 (wBits t) fun _ a b => plainOut (f (wBits t) a b % 2 ^ wBits t)

/-- viadd. -/
def instIadd (t : WType) : Entry → State → Inst := intOp2 t fun _ a b => a + b
/-- visub. -/
def instIsub (t : WType) : Entry → State → Inst := intOp2 t fun w a b => a + 2 ^ w - b
/-- vimul: the low bits of the product. -/
def instImul (t : WType) : Entry → State → Inst := intOp2 t fun _ a b => a * b
/-- vimin. -/
def instImin (t : WType) : Entry → State → Inst := intOp2 t fun w a b => if asInt w a ≤ asInt w b then a else b
/-- vimax. -/
def instImax (t : WType) : Entry → State → Inst := intOp2 t fun w a b => if asInt w a ≥ asInt w b then a else b
/-- viand. -/
def instIand (t : WType) : Entry → State → Inst := intOp2 t fun _ a b => a &&& b
/-- vior. -/
def instIor (t : WType) : Entry → State → Inst := intOp2 t fun _ a b => a ||| b
/-- vixor. -/
def instIxor (t : WType) : Entry → State → Inst := intOp2 t fun _ a b => a ^^^ b
/-- visll: by b mod w. -/
def instIsll (t : WType) : Entry → State → Inst := intOp2 t fun w a b => a <<< (b % w)
/-- visrl: by b mod w, zeros entering. -/
def instIsrl (t : WType) : Entry → State → Inst := intOp2 t fun w a b => a >>> (b % w)
/-- vifsl: the upper half of a:b shifted left by the third source mod w. -/
def instIfsl (t : WType) : Entry → State → Inst :=
  lanewise3 (wBits t) fun _ a b c =>
    let w := wBits t
    plainOut (((a * 2 ^ w + b) <<< (c % w)) / 2 ^ w % 2 ^ w)
/-- vifsr: the lower half of a:b shifted right by the third source mod w. -/
def instIfsr (t : WType) : Entry → State → Inst :=
  lanewise3 (wBits t) fun _ a b c =>
    let w := wBits t
    plainOut (((a * 2 ^ w + b) >>> (c % w)) % 2 ^ w)

/-! ### VCMP (R157, R158) -/

/-- The mask of a comparison: bit i of an active lane is its condition, of an inactive lane the old bit or 0, and
bits from L on are 0 (R157). -/
def maskOf (e : Entry) (old : Nat) (lanes : Nat) (f : Nat → Bool) : Nat :=
  packNat 1 ((List.range lanes).map fun i =>
    if (if e.active i then f i else !e.x.z && old.testBit i) then 1 else 0)

/-- A floating-point comparison. -/
def fpCompare (t : FType) (f : FVal → FVal → Bool) (e : Entry) (s : State) : Inst := do
  let g := fOf t
  s.twiceCheck (vlinks [e.x.oa, e.x.ob])
  let (a, s) ← s.readV e.x.oa g.width
  let (b, s) ← s.readV e.x.ob g.width
  let m := maskOf e (s.scalarOld e.x.od).toNat (1024 / g.width) fun i =>
    f (g.decode (laneAt g.width a i)) (g.decode (laneAt g.width b i))
  let s ← s.writeScalarDest e.x.od (BitVec.ofNat 64 m)
  .ok (s, [])

/-- veq. -/
def instEq (t : FType) : Entry → State → Inst := fpCompare t fun a b => a.eqv b
/-- vlt. -/
def instLt (t : FType) : Entry → State → Inst := fpCompare t fun a b => a.lt b
/-- vle. -/
def instLe (t : FType) : Entry → State → Inst := fpCompare t fun a b => a.lt b || a.eqv b
/-- vne: also when either is NaN. -/
def instNe (t : FType) : Entry → State → Inst := fpCompare t fun a b => !a.eqv b
/-- vuno: either is NaN. -/
def instUno (t : FType) : Entry → State → Inst := fpCompare t fun a b => a.isNan || b.isNan

/-- An integer comparison; at `.b` the mask is a pair of registers (R158). -/
def intCompare (t : WType) (f : Nat → Nat → Nat → Bool) (e : Entry) (s : State) : Inst := do
  let w := wBits t
  s.twiceCheck (vlinks [e.x.oa, e.x.ob])
  let (a, s) ← s.readV e.x.oa w
  let (b, s) ← s.readV e.x.ob w
  let old := (s.scalarOld e.x.od).toNat + (if w = 8 then (s.scalarOld (oddScalar e.x.od)).toNat * 2 ^ 64 else 0)
  let m := maskOf e old (1024 / w) fun i => f w (laneAt w a i) (laneAt w b i)
  let s ← s.writeScalarDest e.x.od (BitVec.ofNat 64 m)
  let s ← if w = 8 then s.writeScalarDest (oddScalar e.x.od) (BitVec.ofNat 64 (m / 2 ^ 64)) else .ok s
  .ok (s, [])

/-- vieq. -/
def instIeq (t : WType) : Entry → State → Inst := intCompare t fun _ a b => a == b
/-- vilt: signed. -/
def instIlt (t : WType) : Entry → State → Inst := intCompare t fun w a b => asInt w a < asInt w b

/-- vsel (R159): a where the mask bit is 1, b where it is 0. -/
def instSel (e : Entry) (s : State) : Inst := do
  let w := wsBits e.x.imm.toNat
  s.twiceCheck (vlinks [e.x.oa, e.x.ob])
  let (a, s) ← s.readV e.x.oa w
  let (b, s) ← s.readV e.x.ob w
  let v := ofLanes w ((List.range (1024 / w)).map fun i => if e.mask.getLsbD i then laneAt w a i else laneAt w b i)
  let s ← s.writeV e.x.od v
  .ok (s, [])

end Sys2Proof.Machine
end

