-- ==== Sys2Proof/Machine/VConv.lean ====
section
/-! DEFINITION. Instances of the conversions and approximations (R160-R165). -/

namespace Sys2Proof.Machine

/-! ### vcvt (R161, R162) -/

/-- The cue fields of vcvt: AF, BF, the block size (0 for none), SF, XV and TSF (R127). -/
def cueAf (c : BitVec 24) : Fmt := Fmt.ofCode (c.extractLsb' 0 4)
def cueBf (c : BitVec 24) : Fmt := Fmt.ofCode (c.extractLsb' 4 4)
def cueBlock (c : BitVec 24) : Nat := match (c.extractLsb' 8 2).toNat with | 0 => 0 | 1 => 8 | 2 => 16 | _ => 32
def cueSf (c : BitVec 24) : Nat := (c.extractLsb' 10 2).toNat
def cueXv (c : BitVec 24) : Bool := c.getLsbD 12
def cueTsf (c : BitVec 24) : Nat := (c.extractLsb' 13 2).toNat
def cueRnd (c : BitVec 24) : Nat := (c.extractLsb' 16 3).toNat

/-- The shape of a conversion: source and destination widths. -/
structure CvtShape where
  wa : Nat
  wb : Nat
  deriving DecidableEq, Repr

/-- The widths of a cue's formats (R75). -/
def cvtShape (c : BitVec 24) : CvtShape := { wa := elemStorage (cueAf c), wb := elemStorage (cueBf c) }
/-- The larger width W. -/
def CvtShape.big (h : CvtShape) : Nat := max h.wa h.wb
/-- The elements of one instance. -/
def CvtShape.count (h : CvtShape) : Nat := 1024 / h.big
/-- The number of parts. -/
def CvtShape.parts (h : CvtShape) : Nat := h.big / min h.wa h.wb
/-- AF wider than BF. -/
def CvtShape.narrows (h : CvtShape) : Bool := h.wa > h.wb
/-- AF narrower than BF. -/
def CvtShape.widens (h : CvtShape) : Bool := h.wa < h.wb

/-- Whether a conversion reads block scales (R162). -/
def cvtScaled (c : BitVec 24) : Bool := cueBlock c != 0 && !(cvtShape c).narrows

/-- The tensor scale's value: BF16 or FP32 in a scalar register's low bits (R162). -/
def tensorScale (tsf : Nat) (x : Word) : FVal :=
  match tsf with
  | 1 => bf16.decode (x.toNat % 2 ^ 16)
  | 2 => fp32.decode (x.toNat % 2 ^ 32)
  | _ => .fin false 1 0

/-- vcvt (R161, R162). A scale entry past byte 127 of vb reads as 0, and FZ leaves the tensor scale as it is (DESIGN CHOICE,
log 48). An E2M1X source always has an entry with its BX (R77, R128). -/
def instCvt (e : Entry) (s : State) : Inst := do
  let c := e.cue.getD 0
  let h := cvtShape c
  let af := cueAf c
  let bf := cueBf c
  let part := e.x.imm.toNat % 32
  let scaled := cvtScaled c
  s.twiceCheck (vlinks ([e.x.oa] ++ (if scaled then [e.x.ob] else [])))
  let (a, s) ← s.readV e.x.oa h.wa
  let sw := if cueXv c then 16 else 8
  let (sc, s) ← if scaled then s.readV e.x.ob sw else .ok (0, s)
  let ts := tensorScale (cueTsf c) e.sc
  let elem (i : Nat) : Out :=
    let k := if h.widens then part * h.count + i else i
    let x := laneAt h.wa a k
    let v : FVal × Ev :=
      if scaled then
        let en := laneAt sw sc (k / cueBlock c)
        scaledValue af x (en / 256) (scaleValue (cueSf c) (en % 256)) ts
      else if cueTsf c != 0 then
        let r := elemRead af e.fz 0 x
        let o := fp32.round .rne false false (r.1.mul ts)
        (fp32.decode o.code, r.2 ||| (o.ev &&& ~~~Ev.nanMade))
      else elemRead af e.fz 0 x
    let o := convert bf e.rm e.fz e.sat v.1
    { o with ev := o.ev ||| v.2 }
  let pos (i : Nat) : Nat := if h.narrows then part * h.count + i else i
  let maskBit (i : Nat) : Nat :=
    if h.big ≥ 8 then i else if h.narrows then i * h.wa / 8 else pos i * h.wb / 8
  let res := (List.range h.count).map fun i => if e.active (maskBit i) then some (elem i) else none
  let first := if h.narrows then part * h.count else 0
  let old : List Nat := lanesOf h.wb ((s.oldV e.x.od).getD 0)
  let v := ofLanes h.wb (old.mapIdx fun j x =>
    if j < first || j ≥ first + h.count then x
    else match res.getD (j - first) none with
      | some o => o.code
      | none => if e.x.z then 0 else x)
  let s ← s.writeV e.x.od v
  .ok (s, res.filterMap fun o => o.map (·.ev))

/-! ### The other conversions (R163) and the approximations (R164) -/

/-- The lane type (R160): ET, else the cue field at a bit position, else the default. -/
def laneType (et : Fmt) (cue : Option (BitVec 24)) (lo : Nat) (dflt : Fmt) : Fmt :=
  if et != .none then et
  else match cue with
    | some c => let f := Fmt.ofCode (c.extractLsb' lo 4); if f = .none then dflt else f
    | none => dflt

/-- The format of a lane type; FP32 where it is no lane type, which the checks of R160 exclude. -/
def laneFmt (t : Fmt) : FpFmt :=
  match t with
  | .bf16 => bf16
  | .fp16 => fp16
  | _ => fp32

/-- vcvti: floating-point lanes to signed integers of the same width. -/
def instCvti (e : Entry) (s : State) : Inst :=
  let g := laneFmt (laneType e.x.et e.cue 0 .fp32)
  lanewise1 g.width (fun e x => let r := g.read e.fz x; let o := convertInt g.width true e.rm r.1; { o with ev := o.ev ||| r.2 }) e s

/-- vcvtf: signed integer lanes to floating point of the same width. -/
def instCvtf (e : Entry) (s : State) : Inst :=
  let g := laneFmt (laneType e.x.et e.cue 4 .fp32)
  lanewise1 g.width (fun e x => g.round e.rm e.fz false (FVal.ofInt (asInt g.width x))) e s

/-- vpack: the FP32 lanes of va and then of vb, rounded into 64 lanes. A queue view supplies a source at the width of its
FP32 lanes (DESIGN CHOICE, log 48). -/
def instPack (e : Entry) (s : State) : Inst := do
  let g := laneFmt (laneType e.x.et e.cue 4 .bf16)
  s.twiceCheck (vlinks [e.x.oa, e.x.ob])
  let (a, s) ← s.readV e.x.oa 32
  let (b, s) ← s.readV e.x.ob 32
  s.writeLanes e 16 fun i =>
    let x := if i < 32 then laneAt 32 a i else laneAt 32 b (i - 32)
    let r := fp32.read e.fz x
    let o := g.round e.rm e.fz false r.1
    { o with ev := o.ev ||| r.2 }

/-- An approximation on lanes of its lane type (R164). -/
def approx (f : FpFmt → Nat → Out) (e : Entry) (s : State) : Inst :=
  let g := laneFmt (laneType e.x.et e.cue 0 .fp32)
  lanewise1 g.width (fun _ x => f g x) e s

/-- vrcp. -/
def instRcp : Entry → State → Inst := approx rcp14
/-- vrsq. -/
def instRsq : Entry → State → Inst := approx rsq14
/-- vexp2. -/
def instExp2 : Entry → State → Inst := approx exp2_14

end Sys2Proof.Machine
end

