-- ==== Sys2Proof/Machine/VData.lean ====
section
/-! DEFINITION. Instances of the moves, permutes and data-dependent helpers (R166-R168). -/

namespace Sys2Proof.Machine

/-! ### VPERM (R166) -/

/-- vmov: 128 bytes; under ME the mask governs 32-bit lanes. -/
def instMov : Entry → State → Inst := lanewise1 32 fun _ x => plainOut x

/-- vbcst: the low bits of the scalar value, or of the literal, in every active lane. -/
def instBcst (t : WType) (e : Entry) (s : State) : Inst :=
  s.writeLanes e (wBits t) fun _ => plainOut (e.sa.toNat % 2 ^ wBits t)

/-- vperm: lane i takes lane (b_i mod L) of va. -/
def instPerm (t : WType) (e : Entry) (s : State) : Inst := do
  let w := wBits t
  s.twiceCheck (vlinks [e.x.oa, e.x.ob])
  let (a, s) ← s.readV e.x.oa w
  let (b, s) ← s.readV e.x.ob w
  s.writeLanes e w fun i => plainOut (laneAt w a (laneAt w b i % (1024 / w)))

/-- vins: lane (w[B] mod L) takes the low bits of w[A]. -/
def instIns (t : WType) (e : Entry) (s : State) : Inst := do
  let w := wBits t
  let k := e.sb.toNat % (1024 / w)
  let old := lanesOf w ((s.oldV e.x.od).getD 0)
  let s ← s.writeV e.x.od (ofLanes w (old.mapIdx fun i x => if i = k then e.sa.toNat % 2 ^ w else x))
  .ok (s, [])

/-- vext: the scalar destination takes lane (w[B] mod L) of va, zero-extended. -/
def instExt (t : WType) (e : Entry) (s : State) : Inst := do
  let w := wBits t
  let (a, s) ← s.readV e.x.oa w
  let s ← s.writeScalarDest e.x.od (BitVec.ofNat 64 (laneAt w a (e.sb.toNat % (1024 / w))))
  .ok (s, [])

/-! ### Data-dependent helpers (R167, R168) -/

/-- The selector of vcomp and vexpd: a scalar register, or at `.b` a pair (R167). -/
def Entry.selects (e : Entry) (i : Nat) : Bool := if i < 64 then e.sb.getLsbD i else e.sc.getLsbD (i - 64)

/-- The lanes a selector names, in ascending order. -/
def Entry.selected (e : Entry) (w : Nat) : List Nat := (List.range (1024 / w)).filter e.selects

/-- vcomp: the selected lanes packed from lane 0 on, zero in the rest. -/
def instComp (e : Entry) (s : State) : Inst := do
  let w := wsBits e.x.imm.toNat
  let (a, s) ← s.readV e.x.oa w
  let s ← s.writeV e.x.od (ofLanes w ((e.selected w).map (laneAt w a)))
  .ok (s, [])

/-- vexpd: lanes 0, 1, … of va into the selected lanes; the others stay. -/
def instExpd (e : Entry) (s : State) : Inst := do
  let w := wsBits e.x.imm.toNat
  let (a, s) ← s.readV e.x.oa w
  let old := lanesOf w ((s.oldV e.x.od).getD 0)
  let rank (i : Nat) : Nat := ((e.selected w).filter (· < i)).length
  let s ← s.writeV e.x.od (ofLanes w (old.mapIdx fun i x => if e.selects i then laneAt w a (rank i) else x))
  .ok (s, [])

/-- A key with its lane placed after those that are not larger. -/
def insertKey (k : Nat × Nat) : List (Nat × Nat) → List (Nat × Nat)
  | [] => [k]
  | j :: js => if j.1 ≤ k.1 then j :: insertKey k js else k :: j :: js

/-- Keys in ascending order, equal keys in lane order. -/
def sortKeys (ks : List (Nat × Nat)) : List (Nat × Nat) := ks.foldl (fun sorted k => insertKey k sorted) []

/-- The active 32-bit lanes. -/
def Entry.activeLanes (e : Entry) : List Nat := (List.range 32).filter e.active

/-- vksort: the active keys in ascending order, their lane numbers in the odd register, 0xFFFFFFFF after them. -/
def instKsort (e : Entry) (s : State) : Inst := do
  let (a, s) ← s.readV e.x.oa 32
  let ks := sortKeys (e.activeLanes.map fun i => (laneAt 32 a i, i))
  let full (xs : List Nat) : VReg := ofLanes 32 ((xs ++ List.replicate 32 0xFFFFFFFF).take 32)
  let s ← s.writeV e.x.od (full (ks.map (·.1)))
  let s ← s.writeV (oddOf e.x.od) (full (ks.map (·.2)))
  .ok (s, [])

/-- vsearch: how many active lanes of va are at most b_i. -/
def instSearch (e : Entry) (s : State) : Inst := do
  s.twiceCheck (vlinks [e.x.oa, e.x.ob])
  let (a, s) ← s.readV e.x.oa 32
  let (b, s) ← s.readV e.x.ob 32
  s.writeLanes e 32 fun i => plainOut ((e.activeLanes.filter fun j => laneAt 32 a j ≤ laneAt 32 b i).length)

/-- vconf: the sum of 2^j over the active lanes j below i that hold the same key. -/
def instConf (e : Entry) (s : State) : Inst := do
  let (a, s) ← s.readV e.x.oa 32
  s.writeLanes e 32 fun i =>
    plainOut (((e.activeLanes.filter fun j => j < i && laneAt 32 a j == laneAt 32 a i).map (2 ^ ·)).sum)

end Sys2Proof.Machine
end

