-- ==== Sys2Proof/Machine/VMem.lean ====
section
/-! DEFINITION. Instances of the vector memory instructions (R169-R175): every access is resolved before any is made,
so that a faulting instance performs none. -/

namespace Sys2Proof.Machine

/-! ### The words of a block (R175) -/

/-- An access of an instance: its address, its key, and the byte of the register at each of its bytes (none: the byte
is not accessed). -/
structure VAccess where
  va : Word
  key : Nat
  bytes : List (Option Nat)
  deriving DecidableEq, Repr

/-- Which bytes of a block lie in its i-th aligned word. -/
def blockWord (ea : Word) (sel : Nat → Bool) (i : Nat) : List (Option Nat) :=
  let a := ea.toNat % 8
  (List.range 8).map fun k => let p := 8 * i + k; if a ≤ p && p - a < 128 && sel (p - a) then some (p - a) else none

/-- How many bytes before the first and from the first to the last that are accessed. -/
def span (bs : List (Option Nat)) : Nat × Nat :=
  let first := (bs.takeWhile (·.isNone)).length
  let last := (bs.reverse.takeWhile (·.isNone)).length
  (first, bs.length - last - first)

/-- The accesses of a 128-byte block at an address, one per aligned 8-byte word with a selected byte, keyed by their
word's key (R175). -/
def State.blockAccesses (s : State) (ea : Word) (sel : Nat → Bool)
    (resolve : State → Word → Nat → Act (Nat × State)) : Act (List VAccess × State) :=
  (List.range 17).foldlM (fun (acc : List VAccess × State) i => do
    let bs := blockWord ea sel i
    if bs.all (·.isNone) then .ok acc
    else
      let wa := ea - BitVec.ofNat 64 (ea.toNat % 8) + BitVec.ofNat 64 (8 * i)
      let sp := span bs
      let (key, t) ← resolve acc.2 (wa + BitVec.ofNat 64 sp.1) sp.2
      .ok (acc.1 ++ [{ va := wa, key := key - sp.1, bytes := bs }], t)) ([], s)

/-- Reading an access's bytes: one plain access (R175); the bytes with their places. -/
def State.readAccess (s : State) (m : LoadMode) (a : VAccess) : Act (List (Nat × Byte) × State) := do
  let sp := span a.bytes
  let key := a.key + sp.1
  let (data, s) ← if isIo key then s.ioLoad true key sp.2
    else do
      let s ← s.checkRead s.self key sp.2
      .ok (s.loadKey true m key sp.2)
  .ok (((a.bytes.drop sp.1).zip data).filterMap fun p => p.1.map fun j => (j, p.2), s)

/-- Whether every byte of an access is written. -/
def VAccess.whole (a : VAccess) : Bool := a.bytes.all (·.isSome)

/-- Writing an access's bytes: one plain access that writes exactly those bytes (R175). -/
def State.writeAccess (s : State) (data : VReg) (a : VAccess) : Act State := do
  let bs : List (Option Byte) := a.bytes.map fun o => o.map fun j => BitVec.ofNat 8 (laneAt 8 data j)
  if isIo a.key then .ok (s.ioStoreSome a.key bs)
  else
    let s ← if a.whole then s.checkWrite s.self a.key bs.length else s.checkRead s.self a.key bs.length
    .ok ((s.storeRec s.self a.key bs none none).inject a.key bs.length)

/-- The bytes that some accesses read. -/
def State.readAll (s : State) (m : LoadMode) (as : List VAccess) : Act (List (Nat × Byte) × State) :=
  as.foldlM (fun (acc : List (Nat × Byte) × State) a => do
    let (bs, t) ← acc.2.readAccess m a
    .ok (acc.1 ++ bs, t)) ([], s)

/-- Writing some accesses in order. -/
def State.writeAll (s : State) (data : VReg) (as : List VAccess) : Act State := as.foldlM (fun s a => s.writeAccess data a) s

/-- The register of the bytes read, each at its place, others as a list gives them. -/
def placeBytes (old : List Nat) (got : List (Nat × Byte)) : VReg :=
  ofLanes 8 (old.mapIdx fun j x => match got.find? fun g => g.1 == j with | some g => g.2.toNat | none => x)

/-! ### vld, vst, vldu, vstu, vstm (R170, R173) -/

/-- The address of a block form: the address operand plus the offset. -/
def State.blockAddr (s : State) (e : Entry) : Act (Word × State) := do
  let (a, s) ← s.vaddr e e.x.oa
  .ok (a + e.x.imm.signExtend 64, s)

/-- The accesses of a block load. -/
def blockReads (align : Nat) (e : Entry) (s : State) : Act (List VAccess × State) := do
  let (ea, s) ← s.blockAddr e
  require (ea.toNat % align == 0) 0x0200 ea
  s.blockAccesses ea (fun _ => true) fun s va n => s.resolve true va n .load

/-- A block load. -/
def blockLoad (align : Nat) (e : Entry) (s : State) : Inst := do
  let (as, s) ← blockReads align e s
  let (got, s) ← s.readAll .plain as
  let s ← (s.countGroup (as.map (·.key))).writeV e.x.od (placeBytes (List.replicate 128 0) got)
  .ok (s, [])

/-- A block store of the selected bytes. -/
def blockStore (align : Nat) (sel : Nat → Bool) (e : Entry) (s : State) : Inst := do
  let (ea, s) ← s.blockAddr e
  let (data, s) ← s.readV e.x.od 32
  require (ea.toNat % align == 0) 0x0200 ea
  let (as, s) ← s.blockAccesses ea sel fun s va n => s.resolve true va n .store
  let s ← s.writeAll data as
  .ok (s.countGroup (as.map (·.key)), [])

/-- vld: 128 aligned bytes. -/
def instLd : Entry → State → Inst := blockLoad 128
/-- vst. -/
def instSt : Entry → State → Inst := blockStore 128 fun _ => true
/-- vldu: any byte address. -/
def instLdu : Entry → State → Inst := blockLoad 1
/-- vstu. -/
def instStu : Entry → State → Inst := blockStore 1 fun _ => true
/-- vstm: the bytes that the mask pair selects. -/
def instStm (e : Entry) : State → Inst := blockStore 128 (fun j => e.mask.getLsbD j) e

/-! ### Gathers, scatters, strided forms (R172) -/

/-- The accesses of the active lanes at their addresses: for one lane, misaligned access comes first (R175). -/
def State.laneAccesses (s : State) (e : Entry) (w : Nat) (k : Acc) (addr : Nat → Word) : Act (List VAccess × State) :=
  ((List.range (1024 / w)).filter e.active).foldlM (fun (acc : List VAccess × State) i => do
    require ((addr i).toNat % (w / 8) == 0) 0x0200 (addr i)
    let (key, t) ← acc.2.resolve true (addr i) (w / 8) k
    .ok (acc.1 ++ [{ va := addr i, key := key, bytes := (List.range (w / 8)).map fun b => some (i * (w / 8) + b) }], t)) ([], s)

/-- The old destination bytes under R20: kept under merge, zero under Z. -/
def Entry.oldBytes (e : Entry) (s : State) : List Nat :=
  if e.x.z then List.replicate 128 0 else lanesOf 8 ((s.oldV e.x.od).getD 0)

/-- A load of lanes. -/
def laneLoad (w : Nat) (addr : Nat → Word) (e : Entry) (s : State) : Inst := do
  let old := e.oldBytes s
  let (as, s) ← s.laneAccesses e w .load addr
  let (got, s) ← s.readAll .plain as
  let s ← (s.countGroup (as.map (·.key))).writeV e.x.od (placeBytes old got)
  .ok (s, [])

/-- A store of lanes. -/
def laneStore (w : Nat) (addr : Nat → Word) (data : VReg) (e : Entry) (s : State) : Inst := do
  let (as, s) ← s.laneAccesses e w .store addr
  let s ← s.writeAll data as
  .ok (s.countGroup (as.map (·.key)), [])

/-- Lane i of a gather or scatter: base + index × size. -/
def indexedAddr (base : Word) (w : Nat) (index : VReg) (i : Nat) : Word := base + BitVec.ofNat 64 (laneAt 32 index i * (w / 8))

/-- Lane i of a strided form: base + i × stride. -/
def stridedAddr (base stride : Word) (i : Nat) : Word := base + BitVec.ofNat 64 i * stride

/-- What vldx reads before its accesses: the address of each lane. A queue view supplies the index vector at the instruction's lane
width (R19), 64 bits at `.d`. -/
def ldxAddrs (e : Entry) (s : State) : Act ((Nat → Word) × State) := do
  let w := wsBits e.x.imm.toNat
  let (base, s) ← s.vaddr e e.x.oa
  let (index, s) ← s.readV e.x.ob w
  .ok (indexedAddr base w index, s)

/-- The same for vlds. -/
def ldsAddrs (e : Entry) (s : State) : Act ((Nat → Word) × State) := do
  let (base, s) ← s.vaddr e e.x.oa
  .ok (stridedAddr base e.sb, s)

/-- vldx. -/
def instLdx (e : Entry) (s : State) : Inst := do
  let (addr, s) ← ldxAddrs e s
  laneLoad (wsBits e.x.imm.toNat) addr e s

/-- vstx. -/
def instStx (e : Entry) (s : State) : Inst := do
  let w := wsBits e.x.imm.toNat
  s.twiceCheck (vlinks [e.x.od, e.x.ob])
  let (base, s) ← s.vaddr e e.x.oa
  let (data, s) ← s.readV e.x.od w
  let (index, s) ← s.readV e.x.ob w
  laneStore w (indexedAddr base w index) data e s

/-- vlds. -/
def instLds (e : Entry) (s : State) : Inst := do
  let (addr, s) ← ldsAddrs e s
  laneLoad (wsBits e.x.imm.toNat) addr e s

/-- The accesses of a plain vector load; none of another operation. -/
def plainReads (e : Entry) (s : State) : Act (List VAccess × State) :=
  match e.op with
  | .ld => blockReads 128 e s
  | .ldu => blockReads 1 e s
  | .ldx => do
    let (addr, s) ← ldxAddrs e s
    s.laneAccesses e (wsBits e.x.imm.toNat) .load addr
  | .lds => do
    let (addr, s) ← ldsAddrs e s
    s.laneAccesses e (wsBits e.x.imm.toNat) .load addr
  | _ => .ok ([], s)

/-- vsts. -/
def instSts (e : Entry) (s : State) : Inst := do
  let w := wsBits e.x.imm.toNat
  let (base, s) ← s.vaddr e e.x.oa
  let (data, s) ← s.readV e.x.od w
  laneStore w (stridedAddr base e.sb) data e s

/-! ### Tile forms (R174) -/

/-- The lane width of a tile form (R142, R171). -/
def tileLane (et : Fmt) : Nat :=
  match et with
  | .none | .fp32 => 32
  | .bf16 | .fp16 => 16
  | _ => 8

/-- The tile that an instance names. -/
def Entry.tile (e : Entry) : Nat := match e.x.oa with | .t n => n.val | _ => 0

/-- The accesses of a tile form: checked by R259, the offset aligned, the bytes below LEN of the active lanes. -/
def State.tileAccesses (s : State) (e : Entry) : Act (List VAccess × State) := do
  s.tileReady e.tile
  let h := s.tteHome s.coreId e.tile
  let entry := s.tteAt h.1 h.2
  let at_ := BitVec.ofNat 64 (tteOff entry) + e.sb
  require (e.sb.toNat % 128 == 0) 0x0200 at_
  let w := tileLane e.x.et
  s.blockAccesses at_ (fun j => e.sb.toNat + j < tteLen entry && e.active (j * 8 / w)) fun s off n =>
    if s.inImage h.1 off.toNat n then trapAt 0x0500 off else .ok (spKey h.1 off.toNat, s)

/-- vldt: zero for the bytes past the tile's length. -/
def instLdt (e : Entry) (s : State) : Inst := do
  let w := tileLane e.x.et
  let old := (e.oldBytes s).mapIdx fun j x => if e.active (j * 8 / w) then 0 else x
  let (as, s) ← s.tileAccesses e
  let (got, s) ← s.readAll .tile as
  let s ← (s.countGroup (as.map (·.key))).writeV e.x.od (placeBytes old got)
  .ok (s, [])

/-- vstt. -/
def instStt (e : Entry) (s : State) : Inst := do
  let (as, s) ← s.tileAccesses e
  let (data, s) ← s.readV e.x.od (tileLane e.x.et)
  let s ← s.writeAll data as
  .ok (s.countGroup (as.map (·.key)), [])

end Sys2Proof.Machine
end

