-- ==== Sys2Proof/Machine/Sequencer.lean ====
section
/-! DEFINITION. The two streams at work (R27-R33, R37, R140-R143, R176-R179): running a vector instance, offloading
a vector instruction, and issuing a scalar one. -/

namespace Sys2Proof.Machine

/-- What an instruction answers. -/
abbrev Result := Host.Outcome State Fault Refusal

/-! ### Instances -/

/-- The instance of an entry. -/
def runInstance (e : Entry) (s : State) : Inst :=
  match e.op with
  | .add t => instAdd t e s
  | .sub t => instSub t e s
  | .mul t => instMul t e s
  | .fma t => instFma t e s
  | .fms t => instFms t e s
  | .min t => instMin t e s
  | .max t => instMax t e s
  | .abs t => instAbs t e s
  | .neg t => instNeg t e s
  | .addX => instAddX e s
  | .subX => instSubX e s
  | .mulX => instMulX e s
  | .dwadd => instDwadd e s
  | .dwmul => instDwmul e s
  | .dwfma => instDwfma e s
  | .dwround => instDwround e s
  | .csum => instCsum e s
  | .cdot => instCdot e s
  | .sum t => instSum t e s
  | .rmax t => instRmax t e s
  | .rmin t => instRmin t e s
  | .scan t => instScan t e s
  | .gmax t => instGmax t e s
  | .iadd t => instIadd t e s
  | .isub t => instIsub t e s
  | .imul t => instImul t e s
  | .imin t => instImin t e s
  | .imax t => instImax t e s
  | .iand t => instIand t e s
  | .ior t => instIor t e s
  | .ixor t => instIxor t e s
  | .isll t => instIsll t e s
  | .isrl t => instIsrl t e s
  | .ifsl t => instIfsl t e s
  | .ifsr t => instIfsr t e s
  | .eq t => instEq t e s
  | .lt t => instLt t e s
  | .le t => instLe t e s
  | .ne t => instNe t e s
  | .uno t => instUno t e s
  | .ieq t => instIeq t e s
  | .ilt t => instIlt t e s
  | .sel => instSel e s
  | .cvt => instCvt e s
  | .cvti => instCvti e s
  | .cvtf => instCvtf e s
  | .pack => instPack e s
  | .rcp => instRcp e s
  | .rsq => instRsq e s
  | .exp2 => instExp2 e s
  | .mov => instMov e s
  | .bcst t => instBcst t e s
  | .perm t => instPerm t e s
  | .ins t => instIns t e s
  | .ext t => instExt t e s
  | .comp => instComp e s
  | .expd => instExpd e s
  | .ksort => instKsort e s
  | .search => instSearch e s
  | .conf => instConf e s
  | .ld => instLd e s
  | .st => instSt e s
  | .ldx => instLdx e s
  | .stx => instStx e s
  | .lds => instLds e s
  | .sts => instSts e s
  | .ldu => instLdu e s
  | .stu => instStu e s
  | .stm => instStm e s
  | .ldt => instLdt e s
  | .stt => instStt e s
  | .padd t => instPadd t e s
  | .psub t => instPsub t e s
  | .pmul t => instPmul t e s
  | .pfma t => instPfma t e s

/-! ### The sequencer's contents -/

/-- The items after the next instance (R178). -/
def Sequencer.popped (q : Sequencer) : List SeqItem :=
  match q.items with
  | [] => []
  | .one _ :: is => is
  | .loop l :: is =>
    if l.ent + 1 < l.body.length then .loop { l with ent := l.ent + 1 } :: is
    else if l.iter + 1 < l.n then .loop { l with iter := l.iter + 1, ent := 0 } :: is
    else is

/-- Whether an operation writes memory or scratchpad (R31). -/
def VOp.stores : VOp → Bool
  | .st | .stx | .sts | .stu | .stm | .stt => true
  | _ => false

/-- The scalar registers that an entry writes (R141, R158). -/
def Entry.sdests (e : Entry) : List (Fin 24) :=
  match e.x.od, e.op with
  | .s (.w n), .ieq .b => [n, Fin.ofNat 24 (n.val + 1)]
  | .s (.w n), .ilt .b => [n, Fin.ofNat 24 (n.val + 1)]
  | .s (.w n), _ => [n]
  | _, _ => []

/-- Whether an earlier vector instruction that has not completed writes a register (R30). -/
def Sequencer.writes (q : Sequencer) (n : Fin 24) : Bool := n != 0 && q.entries.any fun e => e.sdests.contains n

/-- Whether an instance that writes memory has not completed (R31). -/
def Sequencer.storesPending (q : Sequencer) : Bool := q.entries.any fun e => e.op.stores

/-- Closing an open body: the loop is in the sequencer, unless it runs nothing (R28, R177). -/
def Sequencer.close (q : Sequencer) : Sequencer :=
  match q.opened with
  | none => q
  | some o =>
    match o.body.getLast? with
    | none => { q with opened := none }
    | some e =>
      if o.n = 0 then { q with opened := none }
      else { items := q.items ++ [.loop { base := o.base, n := o.n, body := o.body, iter := 0, ent := 0, at_ := o.at_, after := e.after }],
             opened := none }

/-- Closing the open body of the focused context. -/
def State.closeBody (s : State) : State := { s with slot := { s.slot with seq := s.slot.seq.close } }

/-! ### Late scalar results -/

/-- A boundary after an offload at position p, with a register's value that the instance has written since: no scalar
instruction between has touched it (R30). -/
def Boundary.late (p : Nat) (d : Fin 24) (x : Word) (b : Boundary) : Boundary :=
  if p < b.pos then { b with w := wSet b.w d x } else b

/-- The same in everything that keeps a boundary. -/
def SeqItem.late (p : Nat) (d : Fin 24) (x : Word) : SeqItem → SeqItem
  | .one e => .one { e with at_ := e.at_.late p d x }
  | .loop l => .loop { l with at_ := l.at_.late p d x, after := l.after.late p d x, body := l.body.map fun e => { e with at_ := e.at_.late p d x } }

/-- A slot after a scalar destination's late write. -/
def Slot.late (x : Slot) (p : Nat) (d : Fin 24) (v : Word) : Slot :=
  { x with
    q0 := x.q0.map fun i => { i with at_ := i.at_.late p d v }
    q1 := x.q1.map fun i => { i with at_ := i.at_.late p d v }
    seq := { items := x.seq.items.map (SeqItem.late p d v)
             opened := x.seq.opened.map fun o => { o with
               at_ := o.at_.late p d v, body := o.body.map fun e => { e with at_ := e.at_.late p d v } } } }

/-! ### One instance -/

/-- What the vector stream did when it was let run. -/
inductive VTry where
  /-- it moved, or took a trap -/
  | ran (s : State)
  /-- its instance stays where it is: a stall was counted, or a request made -/
  | held (s : State)
  | blocked (b : Block)
  /-- it holds only entries of a body that is still open -/
  | waiting
  /-- it holds no entry -/
  | empty

/-- The source of a trap of an entry's instance (R35). -/
def Entry.source (e : Entry) : TrapSource := { ipc := e.addr, words := e.words, vector := true }

/-- The slot as an instruction completes or traps: a context that waited in it is ACTIVE again and has passed a yield point
(R43, R187). Where a trap keeps a `wait` from completing that a wake had ended, that wake is in the latch. -/
def Slot.completed (x : Slot) (cycle : Nat) : Slot :=
  let p := { x.par with io := { waiting := none, got := [] }, stalled := false, request := .none, predWaits := false, gangWish := none,
                        wake := x.par.wake || x.par.woke, woke := false, waiting := none, timedOut := false }
  match x.st with
  | .waiting => { x with st := .active, par := { p with wd := cycle } }
  | _ => { x with par := p }

/-- An instruction of the context has completed. -/
def State.completed (s : State) : State := { s with slot := s.slot.completed s.cycle }

/-- Device reads that an instance made before it trapped are forgotten. -/
def State.vioDropped (s : State) : State := s.setPar { s.slot.par with vio := { waiting := none, got := [] } }

/-- Whether the next instance is of a vloop's iteration after the first. -/
def Sequencer.again (q : Sequencer) : Bool :=
  match q.items with
  | .loop l :: _ => l.iter != 0
  | _ => false

/-- The boundary after the offload of the next instance's entry, at which S lies when that instance completes and traps (R37 item 3).
For an entry of a loop it is that of the body's last entry, for a reinstated loop the boundary at which the context resumed:
DEDUCED (log 38), the recorded loop runs the body on, so none of it is to be offloaded again. -/
def Sequencer.afterNext (q : Sequencer) : Option Boundary :=
  match q.items with
  | [] => none
  | .one e :: _ => some e.after
  | .loop l :: _ => some l.after

/-- A boundary after an instance has written the scalar registers of its entry. -/
def Boundary.written (b : Boundary) (e : Entry) (w : Vector Word 24) : Boundary :=
  e.sdests.foldl (fun b d => b.late e.at_.pos d (wGet w d)) b

/-- An instance completes: its entry leaves, the link slots that its offload read are empty, its events are counted, and
an enabled one raises the arithmetic trap (R22, R37 item 1, R247). -/
def State.vectorDone (s : State) (e : Entry) (evs : List Ev) : State :=
  let s := if s.slot.seq.again then s else s.emptied e.slinks
  let done := s.slot.seq.afterNext.map fun b => b.written e s.slot.w
  let x := { s.slot with
    seq := { s.slot.seq with items := s.slot.seq.popped }
    par := { s.slot.par with vio := { waiting := none, got := [] } } }
  let x := e.sdests.foldl (fun x d => x.late e.at_.pos d (wGet x.w d)) x
  let s := { s with slot := x.settlePops.unrefused e.addr }.countEvents evs
  let raised := raisedEvents s.slot.status evs
  if raised = 0 then s
  else s.takeTrap { cause := 0x0400, event := raised } e.source s.slot.here done

/-- The focused context's vector stream runs one instance. -/
def State.vectorTry (s : State) : VTry :=
  match s.slot.seq.current with
  | none => match s.slot.seq.opened with
    | some o => if o.body.isEmpty then .empty else .waiting
    | none => .empty
  | some e =>
    match runInstance e s with
    | .ok (t, evs) => .ran (t.vectorDone e evs)
    | .error (.trap tr) => .ran (s.vioDropped.takeTrap tr e.source s.slot.here none)
    | .error (.block b) => .blocked b
    | .error (.hold f) =>
      match s.linksOk (vlinks [e.x.od, e.x.oa, e.x.ob, e.x.oc]) with
      | .error (.trap tr) => .ran (s.vioDropped.takeTrap tr e.source s.slot.here none)
      | _ => .held (f s)
    | .error (.wait t) => .held t

/-- A turn of the vector stream alone. -/
def State.vectorTurn (s : State) : State :=
  match s.vectorTry with
  | .ran t => t
  | .held t => t
  | .blocked (.queue _) => s.count 12 (Config.freeCycles s.free)
  | _ => s

/-! ### Scalar traps and stalls (R33, R37) -/

/-- The source of a trap of the focused context's present instruction. -/
def State.trapSource (s : State) : TrapSource := { ipc := s.slot.pc, words := s.slot.ir, vector := false }

/-- A trap whose instruction has not completed, taken at once. -/
def State.trapNow (s : State) (t : Trap) : State :=
  s.completed.takeTrap t s.trapSource s.slot.here none

/-- The stream-deadlock trap at the blocked scalar instruction (R33). -/
def State.deadlock (s : State) : State := s.trapNow { cause := 0x0300 }

/-- A trap of the scalar stream (R37 item 1): the vector stream first completes, one instance a step; blocked on an
empty q0 or q1 it stands at F; blocked on q2 or q3 both streams are blocked (R33). -/
def State.scalarTrap (s : State) (t : Trap) : State :=
  let s := s.closeBody
  match s.vectorTry with
  | .empty => s.trapNow t
  | .waiting => s.trapNow t
  | .ran u => u
  | .held u => u
  | .blocked (.queue k) => if k < 2 then s.trapNow t else s.deadlock
  | .blocked _ => s

/-- Whether a blocked scalar stream may be part of a stream deadlock (R33). -/
def Block.deadlocks : Block → Bool
  | .queue _ => true
  | .drain => true
  | _ => false

/-- Counting the cycles of a step in which a stream is blocked on a queue (R26). -/
def State.queueCycles (s : State) (b : Block) : State :=
  match b with
  | .queue _ => s.count 12 (Config.freeCycles s.free)
  | _ => s

/-- A step in which the scalar stream is blocked: the vector stream runs on, or both are in a deadlock (R29, R33). -/
def State.stall (s : State) (b : Block) : State :=
  let s := s.setPar { s.slot.par with stalled := b.deadlocks }
  match s.vectorTry with
  | .ran u => u.queueCycles b
  | .held u => u.queueCycles b
  | .empty => if b.deadlocks then s.deadlock else s
  | .waiting => if b.deadlocks then s.deadlock else s.queueCycles b
  | .blocked (.queue k) => if b.deadlocks then s.deadlock else s.queueCycles (.queue k)
  | .blocked _ => s.queueCycles b

/-! ### Issuing a scalar instruction -/

/-- What R31 makes a scalar instruction wait for. -/
inductive Pace where
  /-- nothing -/
  | free
  /-- earlier vector stores -/
  | load
  /-- every earlier vector instruction -/
  | drain
  deriving DecidableEq, Repr

/-- Whether an operand names a link, which acts outside the context (R31). -/
def namesLink : SOpd → Bool
  | .link _ => true
  | _ => false

/-- The open body is closed by an instruction that R31 makes wait (R177). -/
def State.paced (s : State) (p : Pace) : State :=
  match p with
  | .free => s
  | .load => if s.slot.seq.storesPending then s.closeBody else s
  | .drain => s.closeBody

/-- Whether R31 makes it wait. -/
def State.mustDrain (s : State) (p : Pace) : Bool :=
  match p with
  | .free => false
  | .load => s.slot.seq.storesPending
  | .drain => !s.slot.seq.items.isEmpty

/-- Whether R30 makes an instruction wait that reads or writes these operands. -/
def State.hazard (s : State) (ops : List SOpd) : Bool :=
  ops.any fun o => match o with
    | .w n => s.slot.seq.writes n
    | _ => false

/-- The pace of an instruction: one that names a link drains. -/
def paceOf (p : Pace) (ops : List SOpd) : Pace := if ops.any namesLink then .drain else p

/-- What an instruction that has not completed leaves behind: nothing but the trap where it names a link that R212
refuses. -/
def State.keeping (s : State) (ops : List SOpd) (t : State) : State :=
  match s.linksOk (linksOf ops) with
  | .error (.trap k) => s.scalarTrap k
  | _ => t

/-- Issuing a scalar instruction (R28-R33, R57, R102): its decoding checks, the registers it waits for, what R31
makes it wait for, and then its own effect, which leaves the PC where the context goes on. -/
def State.issue (s : State) (c : Checks) (ops : List SOpd) (p : Pace) (body : State → Act State) : State :=
  match s.decodeTrap c with
  | .error (.trap t) => s.scalarTrap t
  | _ =>
    let s := s.paced (paceOf p ops)
    if s.mustDrain (paceOf p ops) || s.hazard ops then s.stall .drain
    else
      match body s with
      | .ok t => t.completed
      | .error (.trap t) => s.scalarTrap t
      | .error (.block b) => s.stall b
      | .error (.hold f) => s.keeping ops (f s)
      | .error (.wait t) => s.keeping ops t

/-- The scalar operands among some specifiers. -/
def scalarsOf (ps : List Spec) : List SOpd := ps.filterMap scalarOf

/-- The checks of an extended scalar form with these sources and destinations. -/
def specChecks (srcs dsts : List Spec) : Checks :=
  { operand := !(srcs.all srcSpec && dsts.all dstSpec), queue := (srcs ++ dsts).any specQueue }

/-! ### Offloading a vector instruction -/

/-- What an operand of a vector instruction is. -/
inductive Role where
  | none
  /-- vector destination, and its pair -/
  | vd | vdPair
  /-- vector source, and its pair -/
  | vs | vsPair
  /-- scalar destination, and its pair -/
  | sd | sdPair
  /-- scalar source, and its pair -/
  | ss | ssPair
  | addr | tile
  /-- the third source by the addend rule (R145), and its pair -/
  | addend | addendPair
  /-- a code in a field of scalar class (R155) -/
  | code
  deriving DecidableEq, Repr

/-- The formats of vcvt's cue hold a block scale that it reads, and the tensor-scale code. -/
def cvtReads (cue : Option (BitVec 24)) : Bool × Bool :=
  match cue with
  | some c => (cvtScaled c, cueTsf c != 0)
  | none => (false, false)

/-- The roles of OD, OA, OB and OC; those of vcvt depend on its cue (R162). -/
def VOp.roles (op : VOp) (ws : Nat) (cue : Option (BitVec 24)) : Role × Role × Role × Role :=
  match op with
  | .add _ | .sub _ | .mul _ | .min _ | .max _ => (.vd, .vs, .vs, .none)
  | .fma _ | .fms _ => (.vd, .vs, .vs, .addend)
  | .abs _ | .neg _ => (.vd, .vs, .none, .none)
  | .addX | .subX | .mulX => (.vdPair, .vs, .vs, .none)
  | .dwadd | .dwmul => (.vdPair, .vsPair, .vsPair, .none)
  | .dwfma => (.vdPair, .vsPair, .vsPair, .addendPair)
  | .dwround => (.vd, .vsPair, .none, .none)
  | .csum => (.vdPair, .vs, .none, .none)
  | .cdot => (.vdPair, .vs, .vs, .none)
  | .sum _ | .rmax _ | .rmin _ | .scan _ => (.vd, .vs, .none, .none)
  | .gmax _ => (.vd, .vs, .code, .none)
  | .iadd _ | .isub _ | .imul _ | .imin _ | .imax _ | .iand _ | .ior _ | .ixor _ | .isll _ | .isrl _ =>
    (.vd, .vs, .vs, .none)
  | .ifsl _ | .ifsr _ => (.vd, .vs, .vs, .addend)
  | .eq _ | .lt _ | .le _ | .ne _ | .uno _ => (.sd, .vs, .vs, .none)
  | .ieq t | .ilt t => (if t = .b then .sdPair else .sd, .vs, .vs, .none)
  | .sel => (.vd, .vs, .vs, .none)
  | .cvt => (.vd, .vs, if (cvtReads cue).1 then .vs else .none, if (cvtReads cue).2 then .ss else .none)
  | .cvti | .cvtf | .rcp | .rsq | .exp2 => (.vd, .vs, .none, .none)
  | .pack => (.vd, .vs, .vs, .none)
  | .mov => (.vd, .vs, .none, .none)
  | .bcst _ => (.vd, .ss, .none, .none)
  | .perm _ => (.vd, .vs, .vs, .none)
  | .ins _ => (.vd, .ss, .ss, .none)
  | .ext _ => (.sd, .vs, .ss, .none)
  | .comp | .expd => (.vd, .vs, if ws = 2 then .ssPair else .ss, .none)
  | .ksort => (.vdPair, .vs, .none, .none)
  | .search => (.vd, .vs, .vs, .none)
  | .conf => (.vd, .vs, .none, .none)
  | .ld | .ldu => (.vd, .addr, .none, .none)
  | .st | .stu | .stm => (.vs, .addr, .none, .none)
  | .ldx => (.vd, .addr, .vs, .none)
  | .stx => (.vs, .addr, .vs, .none)
  | .lds => (.vd, .addr, .ss, .none)
  | .sts => (.vs, .addr, .ss, .none)
  | .ldt => (.vd, .tile, .ss, .none)
  | .stt => (.vs, .tile, .ss, .none)
  | .padd _ | .psub _ | .pmul _ => (.vd, .vs, .vs, .none)
  | .pfma _ => (.vd, .vs, .vs, .addend)

/-- Whether the instruction takes formats (R61). -/
def VOp.formats : VOp → Bool
  | .add _ | .sub _ | .mul _ | .fma _ | .fms _ | .min _ | .max _ | .abs _ | .neg _ => true
  | .sum _ | .rmax _ | .rmin _ | .scan _ | .gmax _ => true
  | .cvt | .cvti | .cvtf | .pack | .rcp | .rsq | .exp2 => true
  | .padd _ | .psub _ | .pmul _ | .pfma _ => true
  | _ => false

/-- Whether both formats of a cue are 8 bits wide or narrower (R161). -/
def cueNarrow (cue : Option (BitVec 24)) : Bool :=
  match cue with
  | some c => (cvtShape c).big ≤ 8
  | none => false

/-- Whether the mask is a pair (R20, R142, R161). -/
def VOp.maskPair (op : VOp) (x : Ext) (cue : Option (BitVec 24)) : Bool :=
  match op with
  | .iadd t | .isub t | .imul t | .imin t | .imax t | .iand t | .ior t | .ixor t | .isll t | .isrl t | .ifsl t
  | .ifsr t | .ieq t | .ilt t | .bcst t | .perm t => t = .b
  | .sel | .lds | .sts => x.imm.toNat % 4 = 2
  | .ldt | .stt => tileLane x.et = 8
  | .stm => true
  | .cvt => cueNarrow cue
  | _ => false

/-- Whether an operand breaks R18, R19 or R52 in its role; `od` is the destination. -/
def Role.operandBad (r : Role) (od p : Spec) : Bool :=
  match r with
  | .none => false
  | .vd => !vdstSpec p
  | .vdPair => !vdstSpec p
  | .vsPair => !vsrcSpec p
  | .vs => !vsrcSpec p
  | .sd | .sdPair | .ssPair => match p with | .s (.w _) => false | _ => true
  | .ss => !srcSpec p
  | .code => match p with | .s _ => false | _ => true
  | .addr => match p with | .s (.w _) => false | .s (.q n) => n ≥ 2 | _ => true
  | .tile => match p with | .t _ => false | _ => true
  | .addend => if p == Spec.zero then (match od with | .v (.v _) => false | _ => true) else !vsrcSpec p
  | .addendPair => if p == Spec.zero then (match od with | .v (.v _) => false | _ => true) else !vsrcSpec p

/-- Whether a pair operand is misaligned (R17). -/
def Role.pairBad (r : Role) (p : Spec) : Bool :=
  match r with
  | .vdPair | .vsPair => match p with | .v (.v n) => n.val % 2 = 1 | .v _ => true | _ => false
  | .addendPair => if p == Spec.zero then false else match p with | .v (.v n) => n.val % 2 = 1 | .v _ => true | _ => false
  | .sdPair | .ssPair => match p with | .s (.w n) => n.val % 2 = 1 | _ => false
  | _ => false

/-- The formats that carry a block scale (R74). -/
def scaledFormat : Fmt → Bool
  | .none | .bf16 | .fp16 | .fp32 => false
  | _ => true

/-- The checks of vcvt's cue and operands (R161, R162): the part, and any other combination; E2M1X without a block scale is
no operand format (R77). -/
def cvtChecks (x : Ext) (base : Bool) (cue : Option (BitVec 24)) : Bool × Bool :=
  match cue with
  | none => (false, true)
  | some c =>
    if cueAf c = .none || cueBf c = .none then (false, true)
    else
      let h := cvtShape c
      let obUnused := if base then x.ob == .v (.v 0) else x.ob == Spec.zero
      let ocScalar := match x.oc with | .s (.w n) => n != 0 | _ => false
      (x.imm.toNat % 32 ≥ h.parts,
        (cvtScaled c && !scaledFormat (cueAf c)) || (!cvtScaled c && (!obUnused || cueAf c = .e2m1x))
          || (if h.narrows then cueTsf c != 0 || x.oc != Spec.zero
              else if cueTsf c != 0 then !ocScalar else x.oc != Spec.zero))

/-- Whether the cue's lane type is refused (R160); that of ET was refused at decoding. -/
def laneTypeBad (op : VOp) (et : Fmt) (cue : Option (BitVec 24)) : Bool :=
  let ok (t : Fmt) : Bool := t = .fp32 || t = .bf16 || t = .fp16
  match op with
  | .cvti | .rcp | .rsq | .exp2 => !ok (laneType et cue 0 .fp32)
  | .cvtf => !ok (laneType et cue 4 .fp32)
  | .pack => let t := laneType et cue 4 .bf16; !(t = .bf16 || t = .fp16)
  | _ => false

/-- The checks of R57 items 2 to 6 on a vector instruction. -/
def vectorChecks (op : VOp) (x : Ext) (base : Bool) (cue : Option (BitVec 24)) : Checks :=
  let r := op.roles (x.imm.toNat % 4) cue
  let cv := if op = .cvt then cvtChecks x base cue else (false, false)
  { formats := op.formats
    reserved := cv.1
    operand := cv.2 || laneTypeBad op x.et cue || r.1.operandBad x.od x.od || r.2.1.operandBad x.od x.oa
      || r.2.2.1.operandBad x.od x.ob || r.2.2.2.operandBad x.od x.oc
    pair := r.1.pairBad x.od || r.2.1.pairBad x.oa || r.2.2.1.pairBad x.ob || r.2.2.2.pairBad x.oc
      || (x.me && op.maskPair x cue && x.mask.val % 2 = 1)
    queue := [x.od, x.oa, x.ob, x.oc].any specQueue }

/-- The scalar operand that a role reads at offload (R30). -/
def Role.reads (r : Role) (p : Spec) : Option SOpd :=
  match r, p with
  | .ss, .s o => some o
  | .ssPair, .s o => some o
  | .addr, .s (.w n) => some (.w n)
  | _, _ => Option.none

/-- The registers that an offload reads: operands, the odd half of a selector pair, and the mask. The old value of a scalar destination
that a masked compare merges into is none of them: DESIGN CHOICE (log 54), the instance reads it as it writes the result, and the
offload does not wait for it. -/
def offloadReads (op : VOp) (x : Ext) (cue : Option (BitVec 24)) : List SOpd :=
  let r := op.roles (x.imm.toNat % 4) cue
  (r.2.1.reads x.oa).toList ++ (r.2.2.1.reads x.ob).toList ++ (r.2.2.2.reads x.oc).toList
    ++ (if r.2.2.1 = .ssPair then scalarsOf [oddScalar x.ob] else [])
    ++ (if x.me then [.w x.mask] else [])
    ++ (if x.me && op.maskPair x cue then [.w (Fin.ofNat 24 (x.mask.val + 1))] else [])

/-- The operand that a role reads as a vector. -/
def Role.vector (r : Role) (p : Spec) : List Spec :=
  match r with
  | .vs | .vsPair | .addend | .addendPair => [p]
  | _ => []

/-- A scalar value read at offload, or a given one. A link keeps its value until the instruction completes; the fields before this one
read the values of these links (R247). -/
def State.offloadRead (s : State) (o : Option SOpd) (before : List Dir) (dflt : Word) : Act (Word × State) :=
  match o with
  | some (.link d) => do
    let v ← s.peekLink d (before.count d)
    .ok (v.setWidth 64, s)
  | some o => s.readS o
  | none => .ok (dflt, s)

/-- The directions that an entry names. -/
def Entry.links (e : Entry) : List Dir := e.slinks ++ vlinks [e.x.od, e.x.oa, e.x.ob, e.x.oc]

/-- Whether an offload that reads these operands waits for an earlier vector instruction: where it reads a link that one names
which has not completed, those of a body that is still open among them (R213, R247; log 13). -/
def State.linkWaits (s : State) (ops : List SOpd) : Bool :=
  (linksOf ops).any fun d => s.slot.seq.entries.any fun e => e.links.contains d

/-- The mask that an entry carries. -/
def State.maskValue (s : State) (x : Ext) (pair : Bool) : BitVec 128 :=
  if !x.me then 0
  else (if pair then wGet s.slot.w (Fin.ofNat 24 (x.mask.val + 1)) else 0) ++ wGet s.slot.w x.mask

/-- The rounding mode of an instruction (R54, R143): RO, then the cue's RND, then STATUS.RM. A cue latch that `upret` or a
switch-in restored may hold an RND of 0b110 or 0b111, which R38 and R41 do not check: DESIGN CHOICE, a free value (log 38). -/
def modeOf (ro : Option Rm) (cue : Option (BitVec 24)) (status : Word) : Rm :=
  match ro with
  | some m => m
  | none =>
    match cue with
    | some c =>
      if cueRnd c = 0 then rmOf status
      else if 6 ≤ cueRnd c then rmOfCode (Config.cueRounding (cueRnd c))
      else rmOfCode (cueRnd c - 1)
    | none => rmOf status

/-- The pending cue. -/
def State.pendingCue (s : State) : Option (BitVec 24) := if pp s.slot.status then some s.slot.cue else none

/-- The cue latch and PP cleared, as the cued instruction issues (R27). -/
def Slot.takeCue (x : Slot) : Slot := if pp x.status then { x with status := setBit x.status 14 false, cue := 0 } else x

/-- Whether an operand field names a queue. -/
def bodyNames (x : Ext) (k : Fin 4) : Bool := [x.od, x.oa, x.ob, x.oc].any fun p => p == .v (.q k) || p == .s (.q k)

/-- The sequencer with an entry offloaded: into an open body, which its k-th entry closes, or by itself (R177). -/
def Sequencer.push (q : Sequencer) (e : Entry) : Sequencer :=
  match q.opened with
  | none => { q with items := q.items ++ [.one e] }
  | some o =>
    let q := { q with opened := some { o with
      body := o.body ++ [e], left := o.left - 1, found0 := o.found0 || bodyNames e.x 0, found1 := o.found1 || bodyNames e.x 1 } }
    if o.left ≤ 1 then q.close else q

/-- Whether the body's instruction is the first to name q0 or q1 and that queue holds an entry: the wait of the vloop's
offload, which is over once the queue has been found empty (R32, R178; log 23). -/
def State.bodyWaits (s : State) (x : Ext) : Bool :=
  match s.slot.seq.opened with
  | some o => (bodyNames x 0 && !o.found0 && !s.slot.q0.isEmpty) || (bodyNames x 1 && !o.found1 && !s.slot.q1.isEmpty)
  | none => false

/-- The entry of a vector instruction, and the state with its scalar operands read (R30). In every instruction with both, the fields
that read vectors come before those that read scalars; where one of each names the same link, the values of the former are taken here,
for its instance (R247). -/
def State.readEntry (s : State) (op : VOp) (x : Ext) (lit : Option Word) : Act (Entry × State) := do
  let cue := s.pendingCue
  let r := op.roles (x.imm.toNat % 4) cue
  let oa := if lit.isSome then none else r.2.1.reads x.oa
  let ob := r.2.2.1.reads x.ob
  let oc := r.2.2.2.reads x.oc
  let vs := vlinks (r.1.vector x.od ++ r.2.1.vector x.oa ++ r.2.2.1.vector x.ob ++ r.2.2.2.vector x.oc)
  let ss := linksOf (oa.toList ++ ob.toList ++ oc.toList)
  s.twiceCheck ((vs ++ ss).filter ss.contains)
  let (sa, t) ← s.offloadRead oa vs (lit.getD 0)
  let (sb, t) ← t.offloadRead ob (vs ++ linksOf oa.toList) 0
  let (sc, t) ← t.offloadRead oc (vs ++ linksOf (oa.toList ++ ob.toList)) 0
  let sc := if r.2.2.1 = .ssPair then (match oddScalar x.ob with | .s (.w n) => wGet s.slot.w n | _ => 0) else sc
  .ok ({ op := op, x := x, words := s.slot.ir, addr := s.slot.pc, cue := cue, rm := modeOf x.ro cue s.slot.status,
         fz := fz s.slot.status, sa := sa, sb := sb, sc := sc, mask := s.maskValue x (op.maskPair x cue), at_ := s.slot.here,
         slinks := linksOf (offloadReads op x cue) }, t)

/-- Offloading a vector instruction of n bytes (R28, R30, R32, R57); with an idle sequencer and no open body, its
instance then runs at once unless the stream is held back (log 6). -/
def State.offload (s : State) (n : Nat) (op : VOp) (x : Ext) (base : Bool) (lit : Option Word := none) : State :=
  match s.decodeTrap (vectorChecks op x base s.pendingCue) with
  | .error (.trap t) => s.scalarTrap t
  | _ =>
    if s.hazard (offloadReads op x s.pendingCue) || s.bodyWaits x then s.stall .drain
    else if s.linkWaits (offloadReads op x s.pendingCue) then s.stall .other
    else if s.slot.seq.entries.length ≥ 16 then s.stall .full
    else
      match s.readEntry op x lit with
      | .ok (e, t) =>
        let idle := t.slot.seq.items.isEmpty && t.slot.seq.opened.isNone && !t.lag
        let y := t.slot.takeCue
        let y := { y with seq := y.seq.push e }
        let t := { t with slot := y.advance n }.completed
        if idle then (match t.vectorTry with | .ran u => u | .held u => u | _ => t) else t
      | .error (.trap t) => s.scalarTrap t
      | .error (.block b) => s.stall b
      | .error (.hold f) => s.keeping (offloadReads op x s.pendingCue) (f s)
      | .error (.wait t) => t

/-! ### Shapes of base forms -/

/-- The extended form's fields for a base form: every field it lacks is zero. -/
def baseExt (od oa ob : Spec) : Ext :=
  { od := od, oa := oa, ob := ob, oc := Spec.zero, z := false, me := false, mask := 0, et := .none, ro := none, scp := .core,
    acq := false, rel := false, imm := 0 }

end Sys2Proof.Machine
end

