-- ==== Sys2Proof/Machine/Scalar.lean ====
section
/-! DEFINITION. The scalar instructions: integer and bit operations, immediates, branches and jumps, loads and stores,
the cue prefix and vloop (R102-R119, R127, R176). -/

namespace Sys2Proof.Machine

/-! ### Shapes -/

/-- An instruction of two sources and a destination, of 4 bytes (R102). -/
def State.op2 (s : State) (d a b : SOpd) (f : Word → Word → Word) : State :=
  s.issue (scalarChecks [a, b] [d]) [d, a, b] .free fun s => do
    s.twiceCheck (linksOf [a, b])
    let (x, s) ← s.readS a
    let (y, s) ← s.readS b
    let s ← s.writeS d (f x y)
    .ok (s.advance 4)

/-- An instruction of one source and a destination, of n bytes. -/
def State.op1 (s : State) (n : Nat) (d a : SOpd) (f : Word → Word) : State :=
  s.issue (scalarChecks [a] [d]) [d, a] .free fun s => do
    let (x, s) ← s.readS a
    let s ← s.writeS d (f x)
    .ok (s.advance n)

/-- A conditional move: the destination is written only when the condition on b holds. -/
def State.condMove (s : State) (d a b : SOpd) (c : Word → Bool) : State :=
  s.issue (scalarChecks [a, b] [d]) [d, a, b] .free fun s => do
    s.twiceCheck (linksOf [a, b])
    let (x, s) ← s.readS a
    let (y, s) ← s.readS b
    let s ← if c y then s.writeS d x else .ok s
    .ok (s.advance 4)

/-- A truth value as a register holds it. -/
def bit (b : Bool) : Word := if b then 1 else 0

/-- A signed result wrapped to 64 bits. -/
def wrap (x : Int) : Word := BitVec.ofInt 64 x

/-! ### INT (R105, R106) -/

/-- add (R105). -/
def execAdd (d a b : SOpd) (s : State) : Result := .next (s.op2 d a b (fun x y => x + y))

/-- sub (R105). -/
def execSub (d a b : SOpd) (s : State) : Result := .next (s.op2 d a b (fun x y => x - y))

/-- mul (R105). -/
def execMul (d a b : SOpd) (s : State) : Result := .next (s.op2 d a b (fun x y => x * y))

/-- mulh (R105). -/
def execMulh (d a b : SOpd) (s : State) : Result := .next (s.op2 d a b (fun x y => wrap (x.toInt * y.toInt / 2 ^ 64)))

/-- and (R105). -/
def execAnd (d a b : SOpd) (s : State) : Result := .next (s.op2 d a b (fun x y => x &&& y))

/-- or (R105). -/
def execOr (d a b : SOpd) (s : State) : Result := .next (s.op2 d a b (fun x y => x ||| y))

/-- xor (R105). -/
def execXor (d a b : SOpd) (s : State) : Result := .next (s.op2 d a b (fun x y => x ^^^ y))

/-- andn (R105). -/
def execAndn (d a b : SOpd) (s : State) : Result := .next (s.op2 d a b (fun x y => x &&& ~~~y))

/-- sll (R105). -/
def execSll (d a b : SOpd) (s : State) : Result := .next (s.op2 d a b (fun x y => x <<< (y.toNat % 64)))

/-- srl (R105). -/
def execSrl (d a b : SOpd) (s : State) : Result := .next (s.op2 d a b (fun x y => x >>> (y.toNat % 64)))

/-- sra (R105). -/
def execSra (d a b : SOpd) (s : State) : Result := .next (s.op2 d a b (fun x y => x.sshiftRight (y.toNat % 64)))

/-- ror (R105). -/
def execRor (d a b : SOpd) (s : State) : Result := .next (s.op2 d a b (fun x y => x.rotateRight (y.toNat % 64)))

/-- min (R105). -/
def execMin (d a b : SOpd) (s : State) : Result := .next (s.op2 d a b (fun x y => if x.sle y then x else y))

/-- max (R105). -/
def execMax (d a b : SOpd) (s : State) : Result := .next (s.op2 d a b (fun x y => if y.sle x then x else y))

/-- slt (R105). -/
def execSlt (d a b : SOpd) (s : State) : Result := .next (s.op2 d a b (fun x y => bit (x.slt y)))

/-- sltu (R105). -/
def execSltu (d a b : SOpd) (s : State) : Result := .next (s.op2 d a b (fun x y => bit (x.ult y)))

/-- seq (R105). -/
def execSeq (d a b : SOpd) (s : State) : Result := .next (s.op2 d a b (fun x y => bit (x == y)))

/-- sne (R105). -/
def execSne (d a b : SOpd) (s : State) : Result := .next (s.op2 d a b (fun x y => bit (x != y)))

/-- cmovz (R105). -/
def execCmovz (d a b : SOpd) (s : State) : Result := .next (s.condMove d a b fun y => y == 0)

/-- cmovn (R105). -/
def execCmovn (d a b : SOpd) (s : State) : Result := .next (s.condMove d a b fun y => y != 0)

/-- The signed sum clamped to 64 bits, and whether it was clamped. -/
def satSum (x y : Word) : Word × Bool :=
  let t := x.toInt + y.toInt
  if t > 2 ^ 63 - 1 then (wrap (2 ^ 63 - 1), true) else if t < -2 ^ 63 then (wrap (-2 ^ 63), true) else (wrap t, false)

/-- addsat (R105): a clamp counts EVC14. -/
def execAddsat (d a b : SOpd) (s : State) : Result :=
  .next (s.issue (scalarChecks [a, b] [d]) [d, a, b] .free fun s => do
    s.twiceCheck (linksOf [a, b])
    let (x, s) ← s.readS a
    let (y, s) ← s.readS b
    let s ← s.writeS d (satSum x y).1
    .ok ((s.count 14 (if (satSum x y).2 then 1 else 0)).advance 4))

/-- The quotient and the remainder (R106). -/
def divide (signed : Bool) (a b : Word) : Word × Word :=
  if b = 0 then (BitVec.allOnes 64, a)
  else if signed then (wrap (a.toInt.tdiv b.toInt), wrap (a.toInt.tmod b.toInt))
  else (a / b, a % b)

/-- Whether STATUS.AEN enables division by zero (R22, R103). -/
def divTrapEnabled (st : Word) : Bool := (aen st).getLsbD 1

/-- A division (R103, R106): it waits for the vector stream when the event is enabled; the event's trap lies after
the instruction. -/
def State.divideOp (s : State) (d a b : SOpd) (f : Word → Word → Word) : State :=
  s.issue (scalarChecks [a, b] [d]) [d, a, b] (if divTrapEnabled s.slot.status then .drain else .free) fun s => do
    let src := s.trapSource
    s.twiceCheck (linksOf [a, b])
    let (x, s) ← s.readS a
    let (y, s) ← s.readS b
    let s ← s.writeS d (f x y)
    let s := s.advance 4
    if y = 0 then
      let s := s.count 6 1
      let raised := raisedEvents s.slot.status [Ev.divZero]
      if raised = 0 then .ok s
      else .ok (s.takeTrap { cause := 0x0400, event := raised } src s.slot.here (some s.slot.here))
    else .ok s

/-- div (R106). -/
def execDiv (d a b : SOpd) (s : State) : Result := .next (s.divideOp d a b fun x y => (divide true x y).1)

/-- divu (R106). -/
def execDivu (d a b : SOpd) (s : State) : Result := .next (s.divideOp d a b fun x y => (divide false x y).1)

/-- rem (R106). -/
def execRem (d a b : SOpd) (s : State) : Result := .next (s.divideOp d a b fun x y => (divide true x y).2)

/-- remu (R106). -/
def execRemu (d a b : SOpd) (s : State) : Result := .next (s.divideOp d a b fun x y => (divide false x y).2)

/-! ### BITS (R107, R108) -/

/-- The number of 1 bits. -/
def popcount (x : Word) : Nat := ((List.range 64).filter fun i => x.getLsbD i).length

/-- The number of 0 bits above the highest 1 bit. -/
def leadingZeros (x : Word) : Nat := if x = 0 then 64 else 63 - x.toNat.log2

/-- The number of 0 bits below the lowest 1 bit. -/
def trailingZeros (x : Word) : Nat := ((List.range 64).find? fun i => x.getLsbD i).getD 64

/-- Bit i moved to bit 63 − i. -/
def reverseBits (x : Word) : Word := BitVec.ofNat 64 (((List.range 64).map fun i => if x.getLsbD i then 2 ^ (63 - i) else 0).sum)

/-- Byte i moved to byte 7 − i. -/
def reverseBytes (x : Word) : Word := wordOf (toBytes 8 x.toNat).reverse

/-- n ones from bit s on (R108). -/
def laneMask (n s : Word) : Word :=
  let k := min n.toNat 64
  let lo := min s.toNat 64
  BitVec.ofNat 64 (2 ^ min (lo + k) 64 - 2 ^ lo)

/-- popc (R107). -/
def execPopc (d a : SOpd) (s : State) : Result := .next (s.op1 4 d a fun x => BitVec.ofNat 64 (popcount x))

/-- clz (R107). -/
def execClz (d a : SOpd) (s : State) : Result := .next (s.op1 4 d a fun x => BitVec.ofNat 64 (leadingZeros x))

/-- ctz (R107). -/
def execCtz (d a : SOpd) (s : State) : Result := .next (s.op1 4 d a fun x => BitVec.ofNat 64 (trailingZeros x))

/-- brev (R107). -/
def execBrev (d a : SOpd) (s : State) : Result := .next (s.op1 4 d a reverseBits)

/-- bswap (R107). -/
def execBswap (d a : SOpd) (s : State) : Result := .next (s.op1 4 d a reverseBytes)

/-- mkm (R108). -/
def execMkm (d a b : SOpd) (s : State) : Result := .next (s.op2 d a b laneMask)

/-- fsli (R107). -/
def execFsli (d a b : SOpd) (c : BitVec 6) (s : State) : Result :=
  .next (s.op2 d a b fun x y => (x <<< c.toNat) ||| (y >>> (64 - c.toNat)))

/-- fsri (R107). -/
def execFsri (d a b : SOpd) (c : BitVec 6) (s : State) : Result :=
  .next (s.op2 d a b fun x y => (y >>> c.toNat) ||| (x <<< (64 - c.toNat)))

/-! ### Immediates (R109-R113) -/

/-- addi (R109). -/
def execAddi (d a : SOpd) (imm : BitVec 14) (s : State) : Result := .next (s.op1 4 d a fun x => x + imm.signExtend 64)

/-- addi with a literal (R110). -/
def execAddiLiteral (d a : SOpd) (lit : Word) (s : State) : Result := .next (s.op1 12 d a fun x => x + lit)

/-- andi (R109). -/
def execAndi (d a : SOpd) (imm : BitVec 14) (s : State) : Result := .next (s.op1 4 d a fun x => x &&& imm.signExtend 64)

/-- ori (R109). -/
def execOri (d a : SOpd) (imm : BitVec 14) (s : State) : Result := .next (s.op1 4 d a fun x => x ||| imm.signExtend 64)

/-- xori (R109). -/
def execXori (d a : SOpd) (imm : BitVec 14) (s : State) : Result := .next (s.op1 4 d a fun x => x ^^^ imm.signExtend 64)

/-- slti (R109). -/
def execSlti (d a : SOpd) (imm : BitVec 14) (s : State) : Result := .next (s.op1 4 d a fun x => bit (x.slt (imm.signExtend 64)))

/-- slli (R111). -/
def execSlli (d a : SOpd) (c : BitVec 6) (s : State) : Result := .next (s.op1 4 d a fun x => x <<< c.toNat)

/-- srli (R111). -/
def execSrli (d a : SOpd) (c : BitVec 6) (s : State) : Result := .next (s.op1 4 d a fun x => x >>> c.toNat)

/-- srai (R111). -/
def execSrai (d a : SOpd) (c : BitVec 6) (s : State) : Result := .next (s.op1 4 d a fun x => x.sshiftRight c.toNat)

/-- A field of n bits at p, as a number (R112). -/
def extractField (x : Word) (p n : Nat) : Nat := x.toNat / 2 ^ p % 2 ^ n

/-- bfx (R112). -/
def execBfx (d a : SOpd) (p wm1 : BitVec 6) (x : Bool) (s : State) : Result :=
  .next (s.op1 4 d a fun v =>
    let n := wm1.toNat + 1
    let f := extractField v p.toNat n
    if x && f ≥ 2 ^ (n - 1) then wrap ((f : Int) - 2 ^ n) else BitVec.ofNat 64 f)

/-- bfi (R112): it reads D as well as A. -/
def execBfi (d a : SOpd) (p wm1 : BitVec 6) (s : State) : Result :=
  .next (s.issue (scalarChecks [a] [d]) [d, a] .free fun s => do
    let (x, s) ← s.readS a
    let (old, s) ← s.readS d
    let s ← s.writeS d (setField old p.toNat (wm1.toNat + 1) x.toNat)
    .ok (s.advance 4))

/-- lpc (R113). -/
def execLpc (d : SOpd) (page : BitVec 19) (s : State) : Result :=
  .next (s.issue (scalarChecks [] [d]) [d] .free fun s => do
    let s ← s.writeS d ((s.slot.pc &&& ~~~0xFFF) + page.signExtend 64 * 4096)
    .ok (s.advance 4))

/-! ### Branches and jumps (R115, R116) -/

/-- A branch to its address plus four times DISP (R49). -/
def State.branch (s : State) (a b : SOpd) (disp : BitVec 14) (taken : Word → Word → Bool) : State :=
  s.issue (scalarChecks [a, b] []) [a, b] .free fun s => do
    s.twiceCheck (linksOf [a, b])
    let (x, s) ← s.readS a
    let (y, s) ← s.readS b
    .ok (if taken x y then s.jump (s.slot.pc + disp.signExtend 64 * 4) else s.advance 4)

/-- g of the mask branches: b, or all ones when B names w0 (R115). -/
def branchMask (b : SOpd) (y : Word) : Word := if b = .w 0 then BitVec.allOnes 64 else y

/-- beq (R115). -/
def execBeq (a b : SOpd) (disp : BitVec 14) (s : State) : Result := .next (s.branch a b disp fun x y => x == y)

/-- bne (R115). -/
def execBne (a b : SOpd) (disp : BitVec 14) (s : State) : Result := .next (s.branch a b disp fun x y => x != y)

/-- blt (R115). -/
def execBlt (a b : SOpd) (disp : BitVec 14) (s : State) : Result := .next (s.branch a b disp fun x y => x.slt y)

/-- bge (R115). -/
def execBge (a b : SOpd) (disp : BitVec 14) (s : State) : Result := .next (s.branch a b disp fun x y => y.sle x)

/-- bltu (R115). -/
def execBltu (a b : SOpd) (disp : BitVec 14) (s : State) : Result := .next (s.branch a b disp fun x y => x.ult y)

/-- bgeu (R115). -/
def execBgeu (a b : SOpd) (disp : BitVec 14) (s : State) : Result := .next (s.branch a b disp fun x y => y.ule x)

/-- bany (R115). -/
def execBany (a b : SOpd) (disp : BitVec 14) (s : State) : Result := .next (s.branch a b disp fun x y => x &&& branchMask b y != 0)

/-- ball (R115). -/
def execBall (a b : SOpd) (disp : BitVec 14) (s : State) : Result := .next (s.branch a b disp fun x y => x &&& branchMask b y == branchMask b y)

/-- bnone (R115). -/
def execBnone (a b : SOpd) (disp : BitVec 14) (s : State) : Result := .next (s.branch a b disp fun x y => x &&& branchMask b y == 0)

/-- j (R116). -/
def execJ (disp : BitVec 24) (s : State) : Result :=
  .next (s.issue {} [] .free fun s => .ok (s.jump (s.slot.pc + disp.signExtend 64 * 4)))

/-- jal (R116): w23 takes the address after it. -/
def execJal (disp : BitVec 24) (s : State) : Result :=
  .next (s.issue {} [.w 23] .free fun s => do
    let target := s.slot.pc + disp.signExtend 64 * 4
    let s ← s.writeS (.w 23) (s.nextPc 4)
    .ok (s.jump target))

/-- jalr (R116): the target is computed, and checked for alignment, before the destination is written. -/
def execJalr (d a : SOpd) (imm : BitVec 14) (s : State) : Result :=
  .next (s.issue (scalarChecks [a] [d]) [d, a] .free fun s => do
    let (x, s) ← s.readS a
    let target := x + imm.signExtend 64 * 4
    require (target.extractLsb' 0 2 == 0) 0x0200 target
    let s ← s.writeS d (s.nextPc 4)
    .ok (s.jump target))

/-! ### Loads and stores (R117, R118) -/

/-- The effective address of format M: the base plus the offset scaled by the size (R49). -/
def effective (base : Word) (off : BitVec 14) (n : Nat) : Word := base + off.signExtend 64 * BitVec.ofNat 64 n

/-- A base load of n bytes. -/
def State.loadOp (s : State) (m : LoadMode) (n : Nat) (d base : SOpd) (off : BitVec 14) (f : Word → Word) : State :=
  s.issue (scalarChecks [base] [d]) [d, base] .load fun s => do
    let (a, s) ← s.readS base
    let (x, s) ← s.loadWord m (effective a off n) n
    let s ← s.writeS d (f x)
    .ok (s.advance 4)

/-- A base store of n bytes: the data operand is D. -/
def State.storeOp (s : State) (n : Nat) (d base : SOpd) (off : BitVec 14) : State :=
  s.issue (scalarChecks [base, d] []) [d, base] .drain fun s => do
    s.twiceCheck (linksOf [base, d])
    let (a, s) ← s.readS base
    let (x, s) ← s.readS d
    let s ← s.storeWord none (effective a off n) n x
    .ok (s.advance 4)

/-- ld.b (R117). -/
def execLdB (d base : SOpd) (off : BitVec 14) (s : State) : Result := .next (s.loadOp .plain 1 d base off (sextBytes 1))

/-- ld.bz (R117). -/
def execLdBz (d base : SOpd) (off : BitVec 14) (s : State) : Result := .next (s.loadOp .plain 1 d base off id)

/-- ld.h (R117). -/
def execLdH (d base : SOpd) (off : BitVec 14) (s : State) : Result := .next (s.loadOp .plain 2 d base off (sextBytes 2))

/-- ld.hz (R117). -/
def execLdHz (d base : SOpd) (off : BitVec 14) (s : State) : Result := .next (s.loadOp .plain 2 d base off id)

/-- ld.w (R117). -/
def execLdW (d base : SOpd) (off : BitVec 14) (s : State) : Result := .next (s.loadOp .plain 4 d base off (sextBytes 4))

/-- ld.wz (R117). -/
def execLdWz (d base : SOpd) (off : BitVec 14) (s : State) : Result := .next (s.loadOp .plain 4 d base off id)

/-- ld.d (R117). -/
def execLdD (d base : SOpd) (off : BitVec 14) (s : State) : Result := .next (s.loadOp .plain 8 d base off id)

/-- ld.inv (R117, R119, R264). -/
def execLdInv (d base : SOpd) (off : BitVec 14) (s : State) : Result := .next (s.loadOp .invariant 8 d base off id)

/-- st.b (R117). -/
def execStB (d base : SOpd) (off : BitVec 14) (s : State) : Result := .next (s.storeOp 1 d base off)

/-- st.h (R117). -/
def execStH (d base : SOpd) (off : BitVec 14) (s : State) : Result := .next (s.storeOp 2 d base off)

/-- st.w (R117). -/
def execStW (d base : SOpd) (off : BitVec 14) (s : State) : Result := .next (s.storeOp 4 d base off)

/-- st.d (R117). -/
def execStD (d base : SOpd) (off : BitVec 14) (s : State) : Result := .next (s.storeOp 8 d base off)

/-! ### The cue prefix and vloop (R27, R127, R176, R177) -/

/-- cue: a cue before it traps (R57). -/
def execCue (pay : BitVec 24) (s : State) : Result :=
  .next (if pp s.slot.status then s.scalarTrap { cause := 0x0104 }
    else s.issue {} [] .free fun s =>
      .ok (({ s with slot := { s.slot with cue := pay, status := setBit s.slot.status 14 true } } : State).advance 4))

/-- Opening a loop body of k entries to run n times; a body still open is closed (R177). -/
def State.openLoop (s : State) (k n : Nat) : State :=
  let o : OpenLoop := { base := s.slot.pc, n := n, left := k, body := [], at_ := s.slot.here }
  let s := s.closeBody
  ({ s with slot := { s.slot with seq := { s.slot.seq with opened := some o } } } : State).advance 4

/-- vloop k, n. -/
def execVloop (k : BitVec 5) (n : BitVec 9) (s : State) : Result :=
  .next (s.issue {} [] .free fun s => .ok (s.openLoop k.toNat n.toNat))

/-- vloop k, wa: n is w[A][31:0]. A body still open is closed before the register is waited for (R177). -/
def execVloopRegister (k : BitVec 5) (a : SOpd) (s : State) : Result :=
  .next (s.closeBody.issue (scalarChecks [a] []) [a] .free fun s => do
    let (x, s) ← s.readS a
    .ok (s.openLoop k.toNat (x.toNat % 2 ^ 32)))

end Sys2Proof.Machine
end

