-- ==== Sys2Proof/Machine/Contexts.lean ====
section
/-! DEFINITION. Contexts coming and going: the mailbox heap (R190-R198), activation and its end (R187-R189), binding,
parking and pre-emption (R220, R223, R362), wakes (R132), the watchdog (R43) and gangs (R208-R210). -/

namespace Sys2Proof.Machine

/-! ### Messages and heap order (R190, R193) -/

/-- GAIN, HID, TAG and KEY of a header (R190). -/
def hdrGain (h : Word) : Nat := field h 32 32
def hdrHid (h : Word) : Nat := field h 26 6
def hdrTag (h : Word) : Nat := field h 16 10
def hdrKey (h : Word) : Nat := field h 0 16

/-- Heap order (R193): gains that are not NaN come first, a larger gain before a smaller, then the earlier stamp. -/
def HeapMsg.before (a b : HeapMsg) : Bool :=
  let x := fp32.decode (hdrGain a.msg.header)
  let y := fp32.decode (hdrGain b.msg.header)
  if x.isNan then y.isNan && a.stamp < b.stamp
  else if y.isNan then true
  else if y.lt x then true
  else if x.lt y then false
  else a.stamp < b.stamp

/-- The message that is first in heap order. -/
def firstOf : List HeapMsg → Option HeapMsg
  | [] => none
  | m :: ms => match firstOf ms with
    | some n => if n.before m then some n else some m
    | none => some m

/-- The messages of a tag, and the first of them (R192, R194). -/
def Core.ofTag (k : Core) (tag : Nat) : List HeapMsg := k.heap.filter fun m => hdrTag m.msg.header == tag

/-- Whether the heap and its overflow region have room for an insertion (R196). -/
def Core.hasRoom (k : Core) : Bool := k.heap.length < Config.heapOnChip + Config.heapOverflow

/-- Inserting a message (R193): stamped, on chip while there is room there; a NaN gain counts EVC13. -/
def Core.insert (k : Core) (now : Nat) (m : Message) : Core :=
  let onChip := (k.heap.filter fun h => !h.overflow).length
  { k with
    heap := k.heap ++ [{ stamp := k.stamp, msg := m, overflow := onChip ≥ Config.heapOnChip, since := now, raised := 0 }]
    stamp := k.stamp + 1
    evc := if isNan32 (hdrGain m.header) then countIn k.evc 13 1 else k.evc }

/-- A gain update (R198) at a core for a tag: whether it was neither merged nor made a message, and the core. It adds its
delta to the gain and to P1 of one present message, or makes a message with it: the sum of the pending gains that the
invariant of R249 speaks of changes by the delta. A default handler whose entry in the handler table is zero counts as set: the
message is made, and dropped at its pop (DEDUCED, log 52: R198 asks for a default handler, R191 gives a zero entry's fate). -/
def Core.gainUpdate (k : Core) (now tag key delta : Nat) (dflt : Option Nat) : Bool × Core :=
  match firstOf ((k.ofTag tag).filter fun m => hdrKey m.msg.header == key) with
  | some m =>
    let add (x : Nat) : Nat := fadd x delta
    let gain := add (hdrGain m.msg.header)
    let p1 := setField m.msg.p[0] 0 32 (add (field m.msg.p[0] 0 32))
    let m' := { m with msg := { header := setField m.msg.header 32 32 gain, p := m.msg.p.set 0 p1 } }
    (false, { k with
      heap := k.heap.map fun n => if n.stamp = m.stamp then m' else n
      evc := if isNan32 gain && !isNan32 (hdrGain m.msg.header) then countIn k.evc 13 1 else k.evc })
  | none =>
    match dflt with
    | some h =>
      let msg : Message := {
        header := BitVec.ofNat 64 (delta * 2 ^ 32 + h * 2 ^ 26 + tag * 2 ^ 16 + key)
        p := Vector.ofFn fun i => if i.val = 0 then BitVec.ofNat 64 delta else if i.val = 1 then BitVec.ofNat 64 key else 0 }
      (false, k.insert now msg)
    | none => (true, k)

/-! ### What a core keeps for a kernel (R188, R199) -/

/-- The core's record of a kernel; all zero before it has any. -/
def Core.of (k : Core) (kid : Nat) : KernelCore :=
  (k.kernels.find? fun r => r.kid == kid).getD
    { kid := kid, ended := 0, endedAtRound := 0, s := 0, c := 0, h := 0, l := 0, stopSeen := false }

/-- Replacing the core's record of a kernel. -/
def Core.putOf (k : Core) (r : KernelCore) : Core := { k with kernels := r :: k.kernels.filter fun q => q.kid != r.kid }

/-- One step of a residual pair (R199), with the events that R95 counts: the residual of R249 and R250. -/
def residualStep (p : BitVec 32 × BitVec 32) (delta : Nat) : (BitVec 32 × BitVec 32) × Ev :=
  let t := twosum p.1.toNat delta
  ((BitVec.ofNat 32 t.hi, BitVec.ofNat 32 (fadd p.2.toNat t.lo)), t.ev)

/-! ### Activation and its end (R188, R189) -/

/-- The slot that runs an activation: w1-w7, the PC and the current header are set, UP is 0, and nothing else changes
(R189). -/
def Slot.activate (x : Slot) (pc : Word) (args : List Word) (header : Word) (level act cycle : Nat) : Slot :=
  { x with
    st := .active
    w := Vector.ofFn fun i => if 1 ≤ i.val && i.val ≤ 7 then args.getD (i.val - 1) 0 else x.w[i]
    pc := pc
    status := setBit x.status 15 false
    pos := x.pos + 1
    par := { x.par with header := header, level := level, issues := false, act := act, wake := false, contribs := [], request := .none,
                        wd := cycle, waiting := none, timedOut := false, woke := false, gangWish := none, refused := none, stalled := false,
                        taken := [] } }

/-- An activation starts in a slot of a core. -/
def State.startIn (s : State) (core slot : Nat) (pc : Word) (args : List Word) (header : Word) (level : Nat) : State :=
  ({ s with ids := s.ids + 1 } : State).setSlot core slot
    ((s.slotAt core slot).activate pc args header level (s.ids + 1) s.cycle)

/-- The effective level of a message at a time (R222): its kernel's PRIO, raised by one for each full aging limit that it
has spent present. -/
def Kernel.levelOf (k : Kernel) (now : Nat) (m : HeapMsg) : Nat := min 3 (k.prio + max m.raised ((now - m.since) / Config.agingLimit))

/-- A unit whose claim has ended: its state ends with it (R327). -/
def MxUnit.freed (m : MxUnit) : MxUnit := { m with claim := none, cfg := 0, acc := none, lastCue := none, epoch := m.epoch + 1, chunk := none }

/-- A unit whose queue is to be a list, the ends of claims at its head carried out. -/
def MxUnit.settleTo (m : MxUnit) : List MxCmd → MxUnit
  | [] => { m with queue := [] }
  | c :: cs =>
    if c.op = .release then MxUnit.settleTo (if m.claim == some c.from_.ident then m.freed else m) cs
    else { m with queue := c :: cs }

/-- The end of a claim whose earlier commands have completed (R327). -/
def MxUnit.settle (m : MxUnit) : MxUnit := m.settleTo m.queue

/-- The queued commands of an activation that ends with an engine fault recorded are to be discarded (R325). -/
def Core.abandon (k : Core) (x : SlotPar) : Core :=
  let due (o : Origin) : Bool := o.ident == x.ident && o.act == x.act && !x.faults.isEmpty
  { k with
    mx := { k.mx with queue := k.mx.queue.map fun q => if due q.from_ then { q with from_ := { q.from_ with dead := true } } else q }
    xq := k.xq.map fun q => if due q.from_ then { q with from_ := { q.from_ with dead := true } } else q }

/-- `end` at the core (R133, R188, R325, R327, R406): the queues are emptied, the pair is reported, the activation
counted, a wake alarm cleared, an undelivered engine fault reported and the commands behind it discarded, the matrix
claim given up once its commands have completed, and the slot is IDLE. -/
def State.endActivation (s : State) : State :=
  let x := s.slot
  let s := s.count 11 (x.q0.length + x.q1.length + x.q2.length + x.q3.length)
  let r := s.core.of x.par.kid
  let mx := (s.core.abandon x.par).mx
  let mx := if mx.claim == some x.par.ident then
      { mx with queue := mx.queue ++ [{
          from_ := { id := 0, ident := x.par.ident, act := x.par.act, kid := x.par.kid, tag := x.tag, slot := s.slotId, by_ := s.self,
                     issued := s.seq, ipc := x.pc, words := [], dead := false }
          op := .release
          epoch := mx.epoch }] }
    else mx
  let core := { s.core.putOf { r with h := r.s, l := r.c, ended := r.ended + 1 } with mx := mx.settle, xq := (s.core.abandon x.par).xq }
  let s := x.par.faults.foldl (fun s f => s.reportAct x.par.kid s.coreId f.cause f.addr) s
  { s with
    core := core
    slot := { x with
      st := .idle
      q0 := []
      q1 := []
      q2 := []
      q3 := []
      seq := { items := [], opened := none }
      pops := []
      status := setBit x.status 15 false
      par := { x.par with
        alarm := match x.par.alarm with
          | some a => if a.header = 0 then none else some a
          | none => none
        contribs := []
        request := .none
        faults := [] } } }

/-! ### Gangs (R208-R210, R245) -/

/-- The gang of a context. -/
def State.gangOf (s : State) (core slot : Nat) : Option Gang := s.gangs.find? fun g => g.members.contains (core, slot)

/-- A gang disbands once every member has executed the current instruction. -/
def State.dissolveGang (s : State) (core slot : Nat) : State :=
  { s with gangs := s.gangs.map fun g => if g.members.contains (core, slot) then { g with dissolve := true } else g }

/-- Where a member's next instruction of its gang's stream stands: the leader's current one, which it has still to execute, or the
leader's next (R209). -/
def Gang.pcOf (g : Gang) (m : Nat × Nat) : Word := if g.pending.contains m then g.base else g.next

/-- The members of a gang that execute, but for one, stand at their next instruction of its stream, as independent contexts will
(R210): also where the leader has not yet executed its first instruction and each still has the PC after its own `gang` (R244). -/
def State.placeMembers (s : State) (g : Gang) (but : Nat × Nat) : State :=
  g.members.foldl (fun s m =>
    let x := s.slotAt m.1 m.2
    if m != but && (x.st == .active || x.st == .waiting) then s.setSlot m.1 m.2 { x with pc := g.pcOf m } else s) s

/-- The focused context at its next instruction of the stream of its gang, if it is in one: where it goes on once it has been unbound
or stopped (R210). -/
def State.inStep (s : State) : State :=
  match s.gangOf s.coreId s.slotId with
  | some g => { s with slot := { s.slot with pc := g.pcOf (s.coreId, s.slotId) } }
  | none => s

/-- A member leaves its gang, which disbands: the others complete the current instruction and go on at the leader's next PC (R210). -/
def State.leaveGang (s : State) (core slot : Nat) : State :=
  let drop (l : List (Nat × Nat)) : List (Nat × Nat) := l.filter fun m => m != (core, slot)
  let s := match s.gangOf core slot with | some g => s.placeMembers g (core, slot) | none => s
  { s with gangs := s.gangs.map fun g =>
      if g.members.contains (core, slot) then { g with members := drop g.members, pending := drop g.pending, dissolve := true } else g }

/-- A gang without pending members that is to disband does so. -/
def State.settleGangs (s : State) : State :=
  { s with gangs := s.gangs.filter fun g => !(g.dissolve && g.pending.isEmpty) && !g.members.isEmpty }

/-- Whether a trap was taken between two states of the focused context. -/
def State.trappedSince (t s : State) : Bool := t.slot.st == .stopped || (up t.slot.status && !up s.slot.status)

/-- A trap since an earlier state takes the focused context out of its gang, which disbands (R210). -/
def State.disbanding (t s : State) : State := if t.trappedSince s then (t.leaveGang t.coreId t.slotId).settleGangs else t

/-! ### Unbinding, parking, stopping (R187, R212, R362) -/

/-- A slot that is bound to nothing. -/
def Slot.unbound (x : Slot) : Slot := { Slot.reset with ir := x.ir, pos := x.pos }

/-- A context as it is kept while parked: its `wait` is to start again (R363), unless a wake has ended it. -/
def Slot.parkedForm (x : Slot) : Slot :=
  { x with w := Slot.reset.w, v := Slot.reset.v, par := { x.par with unbind := false, issues := false, waiting := none, timedOut := false } }

/-- The link claim of a slot is released (R212). -/
def Core.freeClaim (k : Core) (slot : Nat) : Core := if k.claim == some slot then { k with claim := none } else k

/-- The focused context, brought to a resume position, is saved and parked, and its slot becomes UNBOUND (R187,
R362). -/
def State.park (s : State) : State :=
  let s := s.inStep.switchOut
  let x := s.slot
  let s := (s.leaveGang s.coreId s.slotId).settleGangs
  ({ s with slot := x.unbound, core := { s.core.freeClaim s.slotId with parked := x.parkedForm :: s.core.parked } } : State).emit
    (.unbound s.coreId s.slotId true)

/-- Where R40 lets the sequencer of the focused context stop: drained, at an iteration boundary of a loop that is its
only item with no body open after it, or at an instance blocked on an empty q0 or q1 (log 10). -/
def State.maySwitch (s : State) : Bool :=
  let open_ := match s.slot.seq.opened with | some o => !o.body.isEmpty | none => false
  match s.slot.seq.items with
  | [] => true
  | [.loop l] => (l.ent == 0 && !open_) || (match s.vectorTry with | .blocked (.queue k) => k < 2 | _ => false)
  | _ => match s.vectorTry with | .blocked (.queue k) => k < 2 | _ => false

/-- Bringing the vector stream nearer to a place where it may stop; none when it cannot move. -/
def State.towardSwitch (s : State) : Option State :=
  match s.vectorTry with
  | .ran u => some (u.disbanding s)
  | _ => none

/-- The same for an unbind request, which a held instance makes wait. -/
def State.towardUnbind (s : State) : Option State :=
  match s.vectorTry with
  | .held u => some u
  | _ => s.towardSwitch

/-- An unbind request is taken (R187, R220, R362): an IDLE slot becomes UNBOUND, the
registers and queues that it keeps from activation to activation saved in its workspace (R13, R40, R250); an ACTIVE or WAITING context is
saved and parked where R40 allows, or runs an instance toward such a place. The alarm of an IDLE slot is kept with its
workspace (R406). None: it cannot be taken yet. -/
def State.takeUnbind (s : State) : Option State :=
  match s.slot.st with
  | .idle =>
    let s := s.switchOut
    let core := s.core.freeClaim s.slotId
    let core := if s.slot.par.alarm.isSome then { core with parked := s.slot.parkedForm :: core.parked } else core
    some (({ s with slot := s.slot.unbound, core := core } : State).emit (.unbound s.coreId s.slotId false))
  | .active | .waiting => if s.maySwitch then some s.park else s.towardUnbind
  | _ => none

/-- The watchdog limit of a core, in cycles (R25). -/
def Core.wdLimit (k : Core) : Nat := 2 ^ max 16 (min 40 (field k.wdlim 0 6))

/-- Whether the focused context's watchdog count has reached the limit (R43): it counts while the context is bound and
not waiting. -/
def State.wdDue (s : State) : Bool := s.slot.st == .active && s.slot.par.wd + s.core.wdLimit ≤ s.cycle

/-- The watchdog expires (R43): EVC15, and the context stops with its state saved as for a switch; where the vector stream
has a way to go to such a place it first takes a step, and where it is blocked for good (a full q2 or q3, a link, a held
tile) the blocked instance is F (log 10). -/
def State.expire (s : State) : State :=
  match if s.maySwitch then none else s.towardSwitch with
  | some u => u
  | none =>
    let s := s.inStep
    (((s.count 15 1).stopAt 0x0F02 0 0 0 s.slot.here none).leaveGang s.coreId s.slotId).settleGangs

/-- Changing the context of a number on a core, bound or parked. -/
def State.mapContext (s : State) (core ident : Nat) (f : Slot → Slot) : State :=
  match (List.range 16).find? fun k => (s.slotAt core k).st != .unbound && (s.slotAt core k).par.ident == ident with
  | some k => s.setSlot core k (f (s.slotAt core k))
  | none =>
    let k := s.coreAt core
    s.setCore core { k with parked := k.parked.map fun x => if x.par.ident = ident then f x else x }

/-! ### Wakes (R132, R187) -/

/-- Whether a context waits in `wait` and its deadline has passed (R132): at the deadline itself a wake still ends the wait. -/
def Slot.pastDeadline (x : Slot) (now : Nat) : Bool :=
  x.st == .waiting && (match x.par.waiting with | some (t, _) => t.toNat < now | none => false)

/-- A wake posted for a context that does not wait in `wait` sets its latch. -/
def Slot.latched (x : Slot) : Slot := { x with par := { x.par with wake := true } }

/-- The deadline of the `wait` that a context waits in has ended it: it is ACTIVE, to complete it (R132, R187). -/
def Slot.expired (x : Slot) (cycle : Nat) : Slot := { x with st := .active, par := { x.par with wd := cycle, timedOut := true } }

/-- A wake is posted (R132): it ends the `wait` that the context waits in, unless the deadline has ended that before; any other one
sets the latch. -/
def Slot.woken (x : Slot) (now cycle : Nat) : Slot :=
  if x.st == .waiting && x.par.waiting.isSome then
    if x.pastDeadline now then (x.expired cycle).latched
    else { x with st := .active, par := { x.par with wd := cycle, woke := true } }
  else x.latched

/-- The context without its alarm. -/
def Slot.silent (x : Slot) : Slot := { x with par := { x.par with alarm := none } }

/-- The context after its alarm fired: a wake form posts a wake, at the alarm's deadline (R405). -/
def Slot.fired (x : Slot) (cycle : Nat) : Slot :=
  match x.par.alarm with
  | some a => if a.header = 0 then x.silent.woken a.deadline.toNat cycle else x.silent
  | none => x

/-- The context with its alarm fired where it is of the wake form and due (R405). -/
def Slot.rung (x : Slot) (now cycle : Nat) : Slot :=
  match x.par.alarm with
  | some a => if a.header = 0 && a.deadline.toNat ≤ now then x.fired cycle else x
  | none => x

/-- A wake for the context in a slot. -/
def State.wakeSlot (s : State) (core slot : Nat) : State :=
  let x := s.slotAt core slot
  match x.st with
  | .active | .waiting | .stopped => s.setSlot core slot (x.woken s.timeBase s.cycle)
  | _ => s

/-- A wake for the context of a number on a core, bound or parked; one that is parked finds it in the latch (R132, R363). -/
def State.wakeContext (s : State) (core ident : Nat) : State :=
  match (List.range 16).find? fun k => (s.slotAt core k).st != .unbound && (s.slotAt core k).par.ident == ident with
  | some k => s.wakeSlot core k
  | none =>
    let k := s.coreAt core
    s.setCore core { k with parked := k.parked.map fun x =>
      if x.par.ident = ident && x.st != .idle then x.latched else x }

/-- A wake for a parked context. -/
def State.wakeParked (s : State) (core wp : Nat) : State :=
  let k := s.coreAt core
  s.setCore core { k with parked := k.parked.map fun x => if x.wp.toNat = wp then x.latched else x }

/-- The focused context waits in a wait-class instruction (R42, R43, R187). -/
def State.waits (s : State) : State :=
  if s.slot.st = .waiting then s
  else { s with slot := { s.slot with st := .waiting, par := { s.slot.par with issues := false, wd := s.cycle, waitFrom := s.timeBase } } }

/-- A wait-class instruction that waits, changing nothing else. -/
def waitHere (s : State) : Act α := .error (.wait s.waits)

/-- Passing a yield point (R42, R43): the context gives up the issue slot, unless it was given it to end a wait. -/
def State.yieldPoint (s : State) : State :=
  s.setPar { s.slot.par with issues := s.slot.par.issues && (s.slot.st == .waiting || s.slot.par.waiting.isSome), wd := s.cycle }

/-! ### Binding (R187, R220, R223, R360, R422) -/

/-- The fields of a bind record (R219). -/
def bindV (r : Word) : Bool := r.getLsbD 63
def bindTag (r : Word) : Nat := field r 42 10
def bindVcore (r : Word) : Nat := field r 26 16
def bindWp (r : Word) : Nat := field r 12 7 * 4096
def bindPark (r : Word) : Bool := r.getLsbD 0

/-- The kernel of a package with a tag that has not ended. -/
def State.kernelOfTag (s : State) (pkg tag : Nat) : Option Kernel :=
  (s.kernels.find? fun k => k.2.pkg == pkg && k.2.tag == tag && k.2.ended.isNone).map (·.2)

/-- The page-fault slots of a context name the slot it is rebound in (R360). -/
def rewritePfe (p : Vector Word 16) (who : Vector Nat 16) (ident new : Nat) : Vector Word 16 :=
  p.zipWith (fun e w => if e.getLsbD 63 && w == ident then setField e 8 4 new else e) who

/-- The parallel part of a slot as it is bound anew. -/
def SlotPar.bound (kid ident cycle : Nat) : SlotPar := { SlotPar.reset with kid := kid, ident := ident, wd := cycle }

/-- A slot bound to a workspace for a kernel, before its registers are read. -/
def Slot.bound (x : Slot) (tag vcore wp : Nat) (p : SlotPar) : Slot :=
  { x with tag := BitVec.ofNat 10 tag, vcore := BitVec.ofNat 16 vcore, wp := BitVec.ofNat 64 wp, st := .idle, par := p }

/-- A slot whose queues and sequencer are empty. -/
def Slot.emptied (x : Slot) : Slot := { x with q2 := [], q3 := [], seq := { items := [], opened := none } }

/-- The focused slot with its queues and sequencer empty. -/
def State.unqueued (s : State) : State := { s with slot := s.slot.emptied }

/-- The alarm kept with an IDLE slot's workspace for a kernel (R406). -/
def Core.keptAlarm (k : Core) (kid wp : Nat) : Option Alarm :=
  (k.parked.find? fun x => x.st == .idle && x.par.kid == kid && x.wp.toNat == wp).bind fun x => x.par.alarm

/-- The core without it. -/
def Core.takeAlarm (k : Core) (kid wp : Nat) : Core :=
  { k with parked := k.parked.filter fun x => !(x.st == .idle && x.par.kid == kid && x.wp.toNat == wp) }

/-- Binding the focused UNBOUND slot to a workspace for a kernel: IDLE, with the registers the workspace holds. Where the workspace's
SEQ or SEQQ is nonzero, R41's checks are made on them all the same, and what they restore leaves again, since q2, q3 and the
sequencer are empty at activation (R189): DESIGN CHOICE (log 54). -/
def State.bindIdle (s : State) (kid tag vcore wp : Nat) : State :=
  let t := State.switchIn { s with
    ids := s.ids + 1
    slot := s.slot.bound tag vcore wp { SlotPar.bound kid (s.ids + 1) s.cycle with alarm := s.core.keptAlarm kid wp }
    core := s.core.takeAlarm kid wp }
  if t.slot.st == .stopped then t else t.unqueued

/-- Binding the focused UNBOUND slot to a parked context (R41, R223, R363): it goes on as it was parked. A `wait` starts again: it
finds in the latch a wake that was posted meanwhile, also one after its deadline. For the wait limit it keeps the time at which it
began, before the parking: the spec does not say whether the limit counts the time before and during the parking (DESIGN CHOICE,
log 41). -/
def State.bindParked (s : State) (x : Slot) : State :=
  let s := { s with
    slot := { x with pos := s.slot.pos + 1, ir := s.slot.ir, par := { x.par with wd := s.cycle, met := false } }
    core := { s.core with
      parked := s.core.parked.filter fun y => y.par.ident != x.par.ident
      pfe := rewritePfe s.core.pfe s.core.pfeWho x.par.ident s.slotId } }
  s.switchIn

end Sys2Proof.Machine
end

