-- ==== Sys2Proof/Machine/Layouts.lean ====
section
/-! DEFINITION. Layout records and the address generator (R263), the memory accesses of commands (R280, R325, R381), and
the numbers that commands carry. -/

namespace Sys2Proof.Machine

/-! ### Layout records (R263) -/

/-- Whether the words of a record make a valid one. -/
def layoutOk (ws : List Word) : Bool :=
  let w (i : Nat) : Word := ws.getD i 0
  let fmt := Fmt.ofCode ((w 1).extractLsb' 0 4)
  let size := elemStorage fmt
  field (w 1) 4 60 == 0 && fmt != .none && field (w 2) 0 32 < 2 ^ 24 && field (w 2) 32 32 < 2 ^ 24 && field (w 3) 0 32 < 2 ^ 24
    && field (w 3) 32 32 < 2 ^ 24 && (size < 16 || (w 0).toNat % (size / 8) == 0)

/-- The record that eight words make. -/
def layoutOf (ws : List Word) : Layout where
  base := ws.getD 0 0
  fmt := Fmt.ofCode ((ws.getD 1 0).extractLsb' 0 4)
  e0 := field (ws.getD 2 0) 0 32
  e1 := field (ws.getD 2 0) 32 32
  e2 := field (ws.getD 3 0) 0 32
  e3 := field (ws.getD 3 0) 32 32
  s0 := ws.getD 4 0
  s1 := ws.getD 5 0
  s2 := ws.getD 6 0
  s3 := ws.getD 7 0

/-- n words read with plain loads from an address on. -/
def State.loadWords (s : State) (va : Word) : Nat → Act (List Word × State)
  | 0 => .ok ([], s)
  | n + 1 => do
    let (bs, s) ← s.load false .plain va 8
    let (ws, s) ← s.loadWords (va + 8) n
    .ok (wordOf bs :: ws, s)

/-- Reading a layout record with plain loads; its address is judged first. -/
def State.readLayout (s : State) (va : Word) : Act (Layout × State) := do
  require (va.toNat % 64 == 0) 0x0904 va
  let (ws, s) ← s.loadWords va 8
  require (layoutOk ws) 0x0904 va
  .ok (layoutOf ws, s)

/-- The address generator: the byte address and the bit of an element, or OUTSIDE. -/
def Layout.element (l : Layout) (i0 i1 i2 i3 : Nat) : Option (Word × Nat) :=
  if i0 ≥ l.e0 || i1 ≥ l.e1 || i2 ≥ l.e2 || i3 ≥ l.e3 then none
  else
    let e : Int := i0 * l.s0.toInt + i1 * l.s1.toInt + i2 * l.s2.toInt + i3 * l.s3.toInt
    let p := ((8 * (l.base.toNat : Int) + e * (elemStorage l.fmt : Int)) % (2 ^ 67 : Nat)).toNat
    some (BitVec.ofNat 64 (p / 8), p % 8)

/-- The n-th index tuple of a walk over some extents, i0 fastest. -/
def tupleOf (d0 d1 d2 n : Nat) : Nat × Nat × Nat × Nat := (n % d0, n / d0 % d1, n / d0 / d1 % d2, n / d0 / d1 / d2)

/-- The elements that a layout's walk names, in order (R316, R341). -/
def Layout.walk (l : Layout) : List (Option (Word × Nat)) :=
  (List.range (l.e0 * l.e1 * l.e2 * l.e3)).map fun n => let t := tupleOf l.e0 l.e1 l.e2 n; l.element t.1 t.2.1 t.2.2.1 t.2.2.2

/-- Bytes that hold an element of a format. -/
def elemBytes (f : Fmt) : Nat := max 1 (elemStorage f / 8)

/-- Bits of a code of a format: 6 for the 6-bit formats (R75). -/
def elemWidth (f : Fmt) : Nat := match f with | .e2m3 => 6 | .e3m2 => 6 | _ => elemStorage f

/-- The code that some bytes and a bit position hold (R75). -/
def codeIn (f : Fmt) (bytes : List Byte) (bit : Nat) : Nat := ofBytes bytes / 2 ^ bit % 2 ^ elemWidth f

/-- The bytes with a code put in place, the rest of a shared byte as it was (R75). -/
def withCode (f : Fmt) (old : List Byte) (bit code : Nat) : List Byte :=
  if elemStorage f ≥ 8 then toBytes (elemBytes f) (code % 2 ^ elemWidth f)
  else
    let w := elemWidth f
    let x := ofBytes old
    let kept := x - x / 2 ^ bit % 2 ^ w * 2 ^ bit
    toBytes 1 (kept + code % 2 ^ w * 2 ^ bit)

/-! ### Accesses of commands (R325, R381) -/

/-- How an access of a running command stops. -/
inductive CmdStop where
  /-- until it is its turn at the home of the page at this address (R385), or traffic goes through again (R395) -/
  | stall (key : Option Nat)
  /-- a resolvable miss: until the page is resolved, which the operating system may refuse (R381) -/
  | missing (addr : Word)
  /-- the command ends with a fault -/
  | fault (cause : BitVec 16) (addr : Word)
  /-- a machine check (R325, R367) -/
  | check (t : Trap)
  deriving DecidableEq, Repr

/-- What a command does while it runs. -/
abbrev Cmd := Except CmdStop

/-- A check of protection as a command meets it. -/
def asCmd : Act α → Cmd α
  | .ok s => .ok s
  | .error (.trap t) => .error (.check t)
  | .error _ => .error (.stall none)

/-- The accesses of an agent that is no context as requests: those of a command, and of the tree (R385). -/
def Agent.asRequest : Agent → PageReq
  | .command _ _ _ id _ => .command id
  | .tree kid _ => .tree kid 0 0
  | c => .write c 0 [] none

/-- The key that n bytes at an address have for an agent of a core that is no context (R375, R381, R251). -/
def State.cmdKey (s : State) (c : Agent) (core : Nat) (va : Word) (n : Nat) (k : Acc) : Cmd (Nat × State) :=
  let a := va.toNat
  if a ≥ 2 ^ 56 then .error (.fault 0x0A12 va)
  else if a ≥ Config.windowBase then
    let off := a - Config.windowBase
    if off + n > Config.scratchpadBytes then
      .error (.fault 0x0A11 (BitVec.ofNat 64 (Config.windowBase + max off Config.scratchpadBytes)))
    else if s.inImage core off n then .error (.fault 0x0A11 va)
    else .ok (spKey core off, s)
  else
    match asCmd (s.translateFor c core a) with
    | .error e => .error e
    | .ok (.fault, _) => .error (.missing va)
    | .ok (.violation, _) => .error (.fault 0x0A11 va)
    | .ok (.leaf l, s) =>
      let key := l.phys a
      if !l.permits k then .error (.fault 0x0A11 va)
      else if s.homeQueues key c.asRequest then .error (.stall (some key))
      else
        match s.routeTo (pkgOf core) (dieOf core % 8) key with
        | .none_ => .error (.check (s.undelivered c key))
        | .waits => .error (.stall none)
        | _ => .ok (key, s.answered core a)

/-- How a command ends at this stop, if it does: a fault, also a resolvable miss that the operating system refuses
(R381), or a machine check. -/
def CmdStop.ending (refused : Bool) : CmdStop → Option CmdStop
  | .missing va => if refused then some (.fault 0x0A11 va) else none
  | .stall _ => none
  | c => some c

/-- Whether a page-fault slot of the cluster of a core waits for the notice of a page (R360, R382). -/
def State.slotAwaits (s : State) (core : Nat) (page : Nat × BitVec 12 × Nat) : Bool :=
  (List.range 16).any fun p =>
    let k := s.coreAt (clusterMate core p)
    (List.finRange 16).any fun i =>
      (k.pfe[i]).getLsbD 63 && !(k.pfe[i]).getLsbD 62 && (clusterId core, k.pfeAsid[i], k.pfePage[i]) == page

/-- The operating system has refused the page at which a command of a core has stopped: its request is answered, and a later miss
sends another, unless a page-fault slot still waits for the notice (R381, R382). -/
def State.refusedAt (s : State) (core : Nat) (stop : CmdStop) : State :=
  match stop with
  | .missing va => if s.slotAwaits core (s.pageKey core va.toNat) then s else s.answered core va.toNat
  | _ => s

/-- A command of a core that stops but does not end, in the state before its attempt: it stands in the page home's queue
(R385), or its resolution request goes out, one for the page (R381, R382). -/
def State.stalled (s : State) (c : Agent) (core : Nat) (stop : CmdStop) : State :=
  State.letThrough (match stop with
    | .stall (some key) => s.queueRequest key c.asRequest
    | .missing va => s.requestPage core none va
    | _ => s) s c.asRequest

/-- A command reads n bytes; a device's answer is a free value (log 12). -/
def State.cmdRead (s : State) (a : Agent) (core : Nat) (va : Word) (n : Nat) : Cmd (List Byte × State) := do
  let (key, s) ← s.cmdKey a core va n .load
  if isIo key then
    if key / 2 ^ 46 % 8 = 7 then .ok (List.replicate n 0, s) else .ok (toBytes n (Config.freeToken s.free).toNat, s.drew)
  else
    let s ← asCmd (s.checkRead a key n)
    .ok (s.loadPlain a key n)

/-- A command writes bytes. -/
def State.cmdWrite (s : State) (a : Agent) (core : Nat) (va : Word) (data : List Byte)
    (bar : Option (Nat × Nat × Nat × Bool)) : Cmd State := do
  let (key, s) ← s.cmdKey a core va data.length .store
  if isIo key then .ok (s.ioStore key data)
  else
    let s ← asCmd (s.checkWrite a key data.length)
    .ok ((s.storeRec a key (data.map some) none bar).inject key data.length)

/-- A command reads an element. -/
def State.cmdReadElem (s : State) (a : Agent) (core : Nat) (f : Fmt) (at_ : Word × Nat) : Cmd (Nat × State) := do
  let (bs, s) ← s.cmdRead a core at_.1 (elemBytes f)
  .ok (codeIn f bs at_.2, s)

/-- A command writes an element; the other elements of a shared byte keep their bits. -/
def State.cmdWriteElem (s : State) (a : Agent) (core : Nat) (f : Fmt) (at_ : Word × Nat) (code : Nat)
    (bar : Option (Nat × Nat × Nat × Bool)) : Cmd State := do
  if elemStorage f ≥ 8 then s.cmdWrite a core at_.1 (withCode f [] at_.2 code) bar
  else
    let (key, s) ← s.cmdKey a core at_.1 1 .store
    s.cmdWrite a core at_.1 (withCode f (Memory.bytes s.mem key 1) at_.2 code) bar

/-! ### Origins -/

/-- The origin of a command that the focused context issues: the next number. -/
def State.origin (s : State) : Origin :=
  { id := s.ids + 1, ident := s.slot.par.ident, act := s.slot.par.act, kid := s.slot.par.kid, tag := s.slot.tag, slot := s.slotId,
    by_ := s.self, issued := s.seq, ipc := s.slot.pc, words := s.slot.ir, dead := false }

/-- The state with that number taken. -/
def State.numbered (s : State) : State := { s with ids := s.ids + 1 }

/-- The agent of a command on a core. -/
def Origin.agent (o : Origin) (core : Nat) (e : Engine) : Agent := .command o.kid core o.ident o.id e

/-- Counting events on a core (R26). -/
def State.countEventsOn (s : State) (c : Nat) (evs : List Ev) : State :=
  if evs.all (· == 0) then s else let k := s.coreAt c; s.setCore c { k with evc := countAll k.evc evs }

/-- The writes of a context up to now bound an agent's loads (R316). -/
def State.passOn (s : State) (from_ to_ : Agent) : State :=
  { s with hist := s.hist.map fun r => if r.by_ == from_ then r.see to_ else r }

/-- The writes of a context's commands that satisfy a test bound its loads (R317, R326). -/
def State.covered (s : State) (p : Nat → Engine → Bool) : State :=
  { s with hist := s.hist.map fun r =>
      match r.by_ with
      | .command _ _ ident id e => if ident == s.slot.par.ident && p id e then r.see s.self else r
      | _ => r }

end Sys2Proof.Machine
end

