-- ==== Sys2Proof/Machine/Tensors.lean ====
section
/-! DEFINITION. Tensor handles: homes, states, repertoires, the operations accepted and performed, and the TENS
instructions (R294-R318). -/

namespace Sys2Proof.Machine

/-! ### Handles (R294, R295, R299, R307) -/

/-- The tensors of the focused core's address space with a handle. -/
def State.tensorOf (s : State) (h : Word) : Option Tensor :=
  let asid := s.core.aspace.extractLsb' 52 12
  s.tensors.find? fun t => t.handle == h && t.asid == asid

/-- Replacing a tensor. -/
def State.setTensor (s : State) (t : Tensor) : State :=
  { s with tensors := s.tensors.map fun u => if u.serial = t.serial then t else u }

/-- Whether an agent may name a tensor (R295). -/
def State.reaches (s : State) (t : Tensor) (a : Agent) : Bool := inDomain s.sysJoins (.ctx 0 t.creator 0) a t.scope

/-- The key of an element (R296). -/
def Tensor.key (t : Tensor) (n : Nat) : Nat := tensorKey t.serial (dieOf t.creator) n

/-- The traffic of an agent to a tensor's home (R295, R305, R395). -/
def State.toTensor (s : State) (c : Agent) (t : Tensor) : Act Unit := s.passage c c.pkg c.node (t.key 0)

/-- The tensor that the focused context names, FREED or not: the instruction is issued to its home (R305). -/
def State.namedAny (s : State) (h : Word) : Act Tensor :=
  match s.tensorOf h with
  | some t =>
    if h != 0 && s.reaches t s.self then do
      s.toTensor s.self t
      .ok t
    else trapAt 0x0700 h
  | none => trapAt 0x0700 h

/-- The tensor that the focused context names. -/
def State.named (s : State) (h : Word) : Act Tensor := do
  let t ← s.namedAny h
  if t.st = .freed then trapAt 0x0700 h else .ok t

/-- R305: every handle's repertoire in effect has the bit; the first that lacks it is the trap's. -/
def needBit (bit : Nat) : List Tensor → Act Unit
  | [] => .ok ()
  | t :: ts => if t.rep.getLsbD bit then needBit bit ts else trapAt 0x0702 t.handle

/-- Elements of a tensor. -/
def Tensor.size (t : Tensor) : Nat := t.d0 * t.d1 * t.d2 * t.d3
/-- The dimensions. -/
def Tensor.dims (t : Tensor) : Nat × Nat × Nat × Nat := (t.d0, t.d1, t.d2, t.d3)
/-- The number of an element in index order, i0 fastest. -/
def Tensor.at (t : Tensor) (i0 i1 i2 i3 : Nat) : Nat := i0 + t.d0 * (i1 + t.d1 * (i2 + t.d2 * i3))
/-- The index tuple of an element's number. -/
def Tensor.tuple (t : Tensor) (n : Nat) : Nat × Nat × Nat × Nat := tupleOf t.d0 t.d1 t.d2 n

/-- Whether an operation names a handle. -/
def TOp.names (o : TOp) (h : Word) : Bool :=
  h != 0 && (o.dst == h || o.src == h || (match o.work with | .add b _ _ => b == h | _ => false))

/-- The handles that an operation names. -/
def TOp.handles (o : TOp) : List Word :=
  ([o.dst, o.src] ++ (match o.work with | .add b _ _ => [b] | _ => [])).filter (· != 0)

/-- The in-flight count of a handle (R307): accepted operations that do not wait on it. -/
def State.inFlight (s : State) (h : Word) : Nat := (s.tops.filter fun o => o.names h && !o.waits.contains h).length

/-- The form code that a number makes (R300): its zero fields zero, LAY 0 to 2, PLACE 2 and 3 for wide scopes alone, and
PARTS 1 unless it is sliced or replicated. -/
def formWord (wide : Bool) (n : Nat) : Word :=
  let place := n / 2 ^ 10 % (if wide then 4 else 2)
  BitVec.ofNat 64 ((if place = 0 then 1 else max 1 (n / 2 ^ 16 % 2 ^ 16)) * 2 ^ 16 + place * 2 ^ 10 + n / 2 ^ 8 % 4 * 2 ^ 8 + n % 4 % 3)

/-- A form of a tensor (R300). -/
def Tensor.formed (t : Tensor) (n : Nat) : Tensor := { t with form := formWord (t.scope == .pkg || t.scope == .sys) n, want := none }

/-- A change of form is made (R307, R308): to what the form manager has chosen, or to a form that is a free choice
(log 9). -/
def State.reshaped (s : State) (t : Tensor) : State :=
  { s.setTensor (t.formed (t.want.getD (Config.freeForm s.free).toNat)) with free := s.free + 1 }

/-- A handle without operations in flight ends its REFORMING, and the operations that waited are in flight; those that were
accepted before a `tfree` too (R307). -/
def State.reformed (s : State) (h : Word) : State :=
  match s.tensors.find? (·.handle == h) with
  | some t =>
    if t.st != .ready && s.inFlight h = 0 then
      let s := { s with tops := s.tops.map fun o => { o with waits := o.waits.filter (· != h) } }
      if t.st = .reforming then s.reshaped { t with st := .ready } else s
    else s
  | none => s

/-- Accepting an operation of the focused context (R305, R307). -/
def State.accept (s : State) (dst src : Word) (work : TWork) : State :=
  let o : TOp := { from_ := s.origin, core := s.coreId, dst := dst, src := src, queued := [], waits := [], work := work }
  let held := o.handles.filter fun h => match s.tensorOf h with | some t => t.st == .reforming | none => false
  { s.numbered with tops := s.tops ++ [{ o with queued := held, waits := held }] }

/-! ### Triggers (R308) -/

/-- A pending change of a handle meets its trigger. The pending bits are one change, which every `twiden` that joined it and the form
manager share: DESIGN CHOICE (log 53), the first half of any of them triggers it whole. -/
def State.triggered (s : State) (t : Tensor) : State :=
  let u := { t with rep := t.rep ||| t.pending, pending := 0, askers := [], reform := false }
  if t.st = .reforming then s.setTensor u
  else if s.inFlight t.handle != 0 then s.setTensor { u with st := .reforming }
  else s.reshaped u

/-- A curtain half at X by an agent: it is the trigger of the changes that it asked for, and of the form manager's on
handles that it may name (R308). DESIGN CHOICE (log 53): the half for its own location alone that a scoped load, store or atomic
without flags is made with (R271) is no such trigger. -/
def State.trigger (s : State) (a : Agent) (asid : BitVec 12) (x : Scope) : State :=
  s.tensors.foldl (fun s t =>
    let wide := t.scope.code.toNat ≤ x.code.toNat
    let due := t.askers.contains a || (t.reform && t.asid == asid && s.reaches t a)
    if wide && due && t.st != .freed then s.triggered t else s) s

/-- The release halves at `sys` of a kernel's closing as triggers (R282, R308). -/
def State.closingTriggers (s : State) (kid : Nat) (asid : BitVec 12) : State :=
  let agents := (s.hist.map (·.by_) ++ s.tensors.flatMap (·.askers)).filter fun a => a.kid == kid
  agents.eraseDups.foldl (fun s a => s.trigger a asid .sys) s

/-! ### Elements (R296, R303) -/

/-- The code of an element as an agent's load. -/
def State.readElem (s : State) (a : Agent) (t : Tensor) (n : Nat) : Nat × State :=
  let (bs, s) := s.loadPlain a (t.key n) 4
  (ofBytes bs, s)

/-- The codes of some elements, in order. -/
def State.readElems (s : State) (a : Agent) (t : Tensor) : List Nat → List Nat × State
  | [] => ([], s)
  | n :: ns =>
    let (c, s) := s.readElem a t n
    let (cs, s) := s.readElems a t ns
    (c :: cs, s)

/-- Every code of a tensor in index order. -/
def State.tensorCodes (s : State) (a : Agent) (t : Tensor) : List Nat × State := s.readElems a t (List.range t.size)

/-- The reads of some elements of a tensor by an agent, with protection (R266): a correctable error is corrected and logged, an
uncorrectable one is a machine check; in an element whose whole row or column is read, of a tensor whose form keeps checksums, it is
a checksum mismatch (R301). -/
def State.tensorScan (s : State) (c : Agent) (t : Tensor) (ns : List Nat) (whole : Nat → Bool) : Act State :=
  if s.flips.isEmpty then .ok s
  else
    let met (ns : List Nat) (f : Flip) : Bool := ns.any fun n => f.meets (t.key n) 4
    match if t.form.getLsbD 9 then s.flips.find? fun f => f.fatal && met (ns.filter whole) f else none with
    | some f => .error (.trap { cause := 0x0E05, addr := t.handle, array := some f.array })
    | none => s.checkFlips c (met ns)

/-- The same for every element of a tensor. -/
def State.tensorScanAll (s : State) (c : Agent) (t : Tensor) : Act State := s.tensorScan c t (List.range t.size) fun _ => true

/-- Every element of a tensor is about to be written: its stored errors go (R266). -/
def State.renewed (s : State) (t : Tensor) : State :=
  if s.flips.isEmpty then s else { s with flips := s.flips.filter fun f => !(t.key 0 ≤ f.word * 8 && f.word * 8 < t.key t.size) }

/-- Writing a code to an element, which an armed injection may meet (R370). -/
def State.writeElem (s : State) (a : Agent) (t : Tensor) (n code : Nat) : State :=
  (s.storeRec a (t.key n) ((toBytes 4 code).map some) none none).inject (t.key n) 4

/-- Writing codes to the elements from number n on. -/
def State.writeElems (s : State) (a : Agent) (t : Tensor) (n : Nat) : List Nat → State
  | [] => s
  | c :: cs => (s.writeElem a t n c).writeElems a t (n + 1) cs

/-- An element's value (R303). -/
def elemVal (f : Fmt) (code : Nat) : FVal := elemValue f 0 code

/-- Writing results, each rounded to the format, and counting their events on the core (R303). -/
def State.writeResults (s : State) (o : TOp) (t : Tensor) (rs : List Out) : State :=
  ((s.renewed t).writeElems o.from_.by_ t 0 (rs.map (·.code))).countEventsOn o.core (rs.map (·.ev))

/-! ### Reductions (R304) -/

/-- A value as the FP32 code that it is exact in. -/
def as32 (v : FVal) : Nat := (fp32.round .rne false false v).code

/-- The compensated sum of some values: s, c and the events of its steps that R304 counts. -/
def sumStep (p : Nat × Nat × Ev) (v : FVal) : Nat × Nat × Ev :=
  let t := twosum p.1 (as32 v)
  (t.hi, fadd p.2.1 t.lo, p.2.2 ||| (t.ev &&& Ev.pairOverflow))

/-- tsum (R304). A NaN sum counts EVC3 also where the destination's format has no NaN, and EVC3 of the sum and of its conversion count
once together (DEDUCED, log 48). -/
def tensorSum (f : Fmt) (mode : Rm) (sat : Bool) (vs : List FVal) : Out :=
  let p := vs.foldl sumStep (0, 0, 0)
  let v := (fp32.decode p.1).add (mode == .rdn) (fp32.decode p.2.1)
  let r := convert f mode false sat v
  ⟨r.code, p.2.2 ||| (if v.isNan then Ev.nanMade else 0) ||| r.ev⟩

/-- tmax (R304). -/
def tensorMax (f : Fmt) (mode : Rm) (sat : Bool) (vs : List FVal) : Out :=
  let m := vs.foldl (fun m v => (pickCode fp32 true m (as32 v)).code) nan32
  convert f mode false sat (fp32.decode m)

/-- The values of row i1 of matrix (i2, i3), and of column i0. -/
def Tensor.row (t : Tensor) (codes : List Nat) (i1 i2 i3 : Nat) : List FVal :=
  (List.range t.d0).map fun k => elemVal t.fmt (codes.getD (t.at k i1 i2 i3) 0)
def Tensor.col (t : Tensor) (codes : List Nat) (i0 i2 i3 : Nat) : List FVal :=
  (List.range t.d1).map fun k => elemVal t.fmt (codes.getD (t.at i0 k i2 i3) 0)

/-! ### Performing an operation (R306, R307, R312-R316) -/

/-- The elements of a layout's walk read by a command. -/
def State.cmdReadWalk (s : State) (a : Agent) (core : Nat) (f : Fmt) : List (Option (Word × Nat)) → Cmd (List Nat × State)
  | [] => .ok ([], s)
  | none :: es => do
    let (cs, s) ← s.cmdReadWalk a core f es
    .ok (0 :: cs, s)
  | some e :: es => do
    let (c, s) ← s.cmdReadElem a core f e
    let (cs, s) ← s.cmdReadWalk a core f es
    .ok (c :: cs, s)

/-- The elements of a layout's walk read by a copy, up to the access that stops it. -/
def State.cmdReadUntil (s : State) (a : Agent) (core : Nat) (f : Fmt) :
    List (Option (Word × Nat)) → List Nat × State × Option CmdStop
  | [] => ([], s, none)
  | none :: es =>
    let (cs, t, r) := s.cmdReadUntil a core f es
    (0 :: cs, t, r)
  | some e :: es =>
    match s.cmdReadElem a core f e with
    | .error r => ([], s, some r)
    | .ok (c, s) =>
      let (cs, t, r) := s.cmdReadUntil a core f es
      (c :: cs, t, r)

/-- The elements of a layout's walk written by a copy, up to the access that stops it. -/
def State.cmdWriteUntil (s : State) (a : Agent) (core : Nat) (f : Fmt) :
    List (Option (Word × Nat)) → List Nat → State × Option CmdStop
  | some e :: es, c :: cs =>
    match s.cmdWriteElem a core f e c none with
    | .error r => (s, some r)
    | .ok s => s.cmdWriteUntil a core f es cs
  | none :: es, _ :: cs => s.cmdWriteUntil a core f es cs
  | _, _ => (s, none)

/-- The release half of a command's REL. -/
def State.releaseOf (s : State) (a : Agent) (x : Option Scope) : State := match x with | some x => s.release a x | none => s
/-- The acquire half of a command's ACQ. -/
def State.acquireFor (s : State) (a : Agent) (x : Option Scope) : State := match x with | some x => s.acquire a x | none => s

/-- The tensors of which an operation reads whole rows or columns (R301). -/
def TOp.readsWhole (o : TOp) (s : State) (d a : Tensor) : List Tensor :=
  match o.work with
  | .scale _ _ _ => [d]
  | .add b _ _ => a :: (s.tensors.find? (·.handle == b)).toList
  | .rowSum _ _ | .colSum _ _ | .rowMax _ _ | .trans | .conv _ _ => [a]
  | .copyOut _ _ _ => [d]
  | _ => []

/-- The effect of an operation on its tensors, where they hold no error; while an access of a copy cannot be made, what it
waits for. A fault or a machine check ends a copy at that access, as does a page that the operating system refuses, and the writes
made before remain (R325, R367, R381). -/
def State.effectOf (s : State) (o : TOp) (d a : Tensor) (refused : Bool) : Cmd State :=
  let c := o.from_.by_
  let cmd := o.from_.agent o.core (.tensor d.handle)
  match o.work with
  | .set i code => .ok (s.writeElem c d i code)
  | .fill code => .ok ((s.renewed d).writeElems c d 0 (List.replicate d.size code))
  | .scale factor rm sat =>
    let (cs, s) := s.tensorCodes c d
    let k := fp32.decode (factor.toNat % 2 ^ 32)
    .ok (s.writeResults o d (cs.map fun x => convert d.fmt rm false sat ((elemVal d.fmt x).mul k)))
  | .add b rm sat =>
    match s.tensors.find? (·.handle == b) with
    | none => .ok s
    | some b =>
      let (xs, s) := s.tensorCodes c a
      let (ys, s) := s.tensorCodes c b
      .ok (s.writeResults o d ((xs.zip ys).map fun p =>
        convert d.fmt rm false sat ((elemVal a.fmt p.1).add (rm == .rdn) (elemVal b.fmt p.2))))
  | .rowSum rm sat =>
    let (cs, s) := s.tensorCodes c a
    .ok (s.writeResults o d ((List.range d.size).map fun n => let i := d.tuple n
      tensorSum d.fmt rm sat (a.row cs i.1 i.2.1 i.2.2.1)))
  | .colSum rm sat =>
    let (cs, s) := s.tensorCodes c a
    .ok (s.writeResults o d ((List.range d.size).map fun n => let i := d.tuple n
      tensorSum d.fmt rm sat (a.col cs i.1 i.2.1 i.2.2.1)))
  | .rowMax rm sat =>
    let (cs, s) := s.tensorCodes c a
    .ok (s.writeResults o d ((List.range d.size).map fun n => let i := d.tuple n
      tensorMax d.fmt rm sat (a.row cs i.1 i.2.1 i.2.2.1)))
  | .trans =>
    let (cs, s) := s.tensorCodes c a
    .ok ((s.renewed d).writeElems c d 0 ((List.range d.size).map fun n => let i := d.tuple n
      cs.getD (a.at i.2.1 i.1 i.2.2.1 i.2.2.2) 0))
  | .conv rm sat =>
    let (cs, s) := s.tensorCodes c a
    .ok (s.writeResults o d (cs.map fun x => convert d.fmt rm false sat (elemVal a.fmt x)))
  | .copyIn l acq rel =>
    match (s.acquireFor cmd acq).cmdReadUntil cmd o.core d.fmt l.walk with
    | (cs, s, none) => .ok (((s.renewed d).writeElems c d 0 cs).releaseOf cmd rel)
    | (cs, s, some stop) =>
      match stop.ending refused with
      | some (.check t) => .ok ((s.writeElems c d 0 cs).reportCheck o.from_.kid o.core t)
      | some (.fault cause addr) => .ok (((s.writeElems c d 0 cs).reportAct o.from_.kid o.core cause addr).refusedAt o.core stop)
      | _ => .error stop
  | .copyOut l acq rel =>
    let (cs, s) := (s.acquireFor cmd acq).tensorCodes c d
    match s.cmdWriteUntil cmd o.core d.fmt l.walk cs with
    | (s, none) => .ok (s.releaseOf cmd rel)
    | (s, some stop) =>
      match stop.ending refused with
      | some (.check t) => .ok (s.reportCheck o.from_.kid o.core t)
      | some (.fault cause addr) => .ok ((s.reportAct o.from_.kid o.core cause addr).refusedAt o.core stop)
      | _ => .error stop
  | .free => .ok s
  | .engine _ _ => .error (.stall none)

/-- What an operation reads of its tensors, with protection: whole tensors, and the unit in which it sets one element (R266,
R301). -/
def State.scanFor (s : State) (o : TOp) (d a : Tensor) : Act State :=
  match o.work with
  | .set i _ => s.checkWrite o.from_.by_ (d.key i) 4
  | _ => (o.readsWhole s d a).foldlM (fun s t => s.tensorScanAll o.from_.by_ t) s

/-- The traffic of an operation from the home that performs it to the homes of its sources (R395). -/
def State.homesReach (s : State) (o : TOp) (d a : Tensor) : Act Unit :=
  (a :: (match o.work with | .add b _ _ => (s.tensors.find? (·.handle == b)).toList | _ => [])).foldlM
    (fun _ t => s.passage o.from_.by_ (homePkg (d.key 0)) (homeNode (d.key 0)) (t.key 0)) ()

/-- Performing an operation (R306): one that meets an uncorrectable error or a mismatch, or that no route takes to its sources, takes a
machine check and ends (R301, R367, R395). -/
def State.perform (s : State) (o : TOp) (d a : Tensor) (refused : Bool) : Cmd State :=
  match (do s.homesReach o d a; s.scanFor o d a) with
  | .ok t => t.effectOf o d a refused
  | .error (.trap t) => .ok (s.reportCheck o.from_.kid o.core t)
  | .error _ => .error (.stall none)

/-- Whether an accepted operation may be performed after the earlier ones: none of the same context, and none that
waited on a REFORMING handle as it did, names a handle of its own; a `tfree` comes after every one (R306, R307,
R312). -/
def TOp.ready (o : TOp) (earlier : List TOp) : Bool :=
  o.waits.isEmpty && !earlier.any fun e =>
    (e.handles.any o.handles.contains)
      && (e.from_.ident == o.from_.ident || o.work == .free || e.queued.any o.queued.contains)

/-- An operation leaves those in flight, and the changes of form that it held up are made (R307). -/
def State.performed (s : State) (o : TOp) : State :=
  o.handles.foldl State.reformed { s with tops := s.tops.filter fun p => p.from_.id != o.from_.id }

/-- Performing the operation of a place in the order of acceptance, or what it waits for; none when it may not be. -/
def State.attemptAt (s : State) (i : Nat) (refused : Bool) : Option (TOp × Tensor × Cmd State) :=
  match s.tops[i]? with
  | none => none
  | some o =>
    if !o.ready (s.tops.take i) then none
    else
      match s.tensors.find? (·.handle == o.dst), s.tensors.find? (·.handle == (if o.src = 0 then o.dst else o.src)) with
      | some d, some a => some (o, d, s.perform o d a refused)
      | _, _ => none

/-- The state after performing it; none when it cannot be. -/
def State.performAt (s : State) (i : Nat) : Option State :=
  match s.attemptAt i false with
  | some (o, _, .ok t) => some (t.performed o)
  | _ => none

/-- A copy that waits for a page which the operating system refuses ends with a fault (R325, R381); none when there is none of that
number on a core. -/
def State.topFault (s : State) (core id : Nat) (refused : Bool) : Option State :=
  match s.tops.findIdx? fun o => o.core == core && o.from_.id == id with
  | none => none
  | some i =>
    match s.attemptAt i false, s.attemptAt i refused with
    | some (_, _, .error _), some (o, _, .ok t) => some (t.performed o)
    | _, _ => none

/-- Performing the first operation that may be; none when there is none. -/
def State.progressTensors (s : State) : Option State :=
  (List.range s.tops.length).findSome? s.performAt

/-- The same, as what a stall does. -/
def State.tensorProgress (s : State) : State := s.progressTensors.getD s

/-- The performing of an accepted operation at its home (R307); an access that cannot be made is asked for (R381,
R385). -/
def execTensorOperationPerformed (i : Nat) (s : State) : Result :=
  .next (match s.attemptAt i false with
    | some (o, _, .ok t) => t.performed o
    | some (o, d, .error stop) => s.stalled (o.from_.agent o.core (.tensor d.handle)) o.core stop
    | none => s)

/-- The form manager decides to change a handle's form (R308): a change pending until its trigger. -/
def execFormManagerDecision (handle : Word) (form : Nat) (s : State) : Result :=
  .next (match s.tensors.find? (·.handle == handle) with
    | some t => if t.st = .freed then s else s.setTensor { t with reform := true, want := some form }
    | none => s)

/-! ### The TENS instructions (R310-R318) -/

/-- The register of a destination, which names neither a queue nor a link (R310). -/
def plainReg (p : Spec) : Bool := match p with | .s (.w _) => true | _ => false

/-- The checks of a TENS instruction with these sources, whose OD is a destination when `dst` holds. -/
def tensChecks (srcs : List Spec) (od : Option Spec) : Checks :=
  let c := specChecks srcs []
  { c with operand := c.operand || !(match od with | some p => plainReg p | none => true) }

/-- A scalar operand of a specifier. -/
def opdOf (p : Spec) : SOpd := match p with | .s o => o | _ => .w 0

/-- A TENS instruction that reads OA, OB and OC, then does something, and goes on after n bytes (R305). -/
def State.tens (s : State) (x : Ext) (srcs : List Spec) (od : Option Spec) (n : Nat)
    (body : Word → Word → Word → State → Act State) : State :=
  s.issue (tensChecks srcs od) (scalarsOf (srcs ++ od.toList)) .drain fun s => do
    s.twiceCheck (linksOf (scalarsOf srcs))
    let (a, s) ← if srcs.contains x.oa then s.readS (opdOf x.oa) else .ok (0, s)
    let (b, s) ← if x.ob != Spec.zero then s.readS (opdOf x.ob) else .ok (0, s)
    let (c, s) ← if x.oc != Spec.zero then s.readS (opdOf x.oc) else .ok (0, s)
    let s ← body a b c s
    .ok (s.advance n)

/-- Whether eight words make a valid descriptor (R297, R299). -/
def descriptorOk (ws : List Word) : Bool :=
  let w (i : Nat) : Word := ws.getD i 0
  let rank := field (w 0) 20 2
  let dims := [field (w 1) 0 32, field (w 1) 32 32, field (w 2) 0 32, field (w 2) 32 32]
  field (w 0) 22 42 == 0 && field (w 0) 16 4 != 0 && dims.all (fun d => 1 ≤ d && d < 2 ^ 24)
    && (dims.drop (rank + 1)).all (· == 1) && (ws.drop 3).all (· == 0)
    && !(Fmt.ofCode ((w 0).extractLsb' 16 4) == .e2m1x && (w 0).toNat &&& 0x2F8 != 0)

/-- Whether a handle has been issued, in any address space. -/
def State.issued (s : State) (h : Word) : Bool := h == 0 || s.handles.contains h

/-- A new handle: the free one, unless it is 0 or was issued before; then the least that was not (R294, log 9). -/
def State.freshHandle (s : State) : Word :=
  let h := Config.freeHandle s.free
  if !s.issued h then h
  else BitVec.ofNat 64 (((List.range (s.handles.length + 2)).find? fun n => !s.issued (BitVec.ofNat 64 n)).getD 0)

/-- The tensor that a descriptor makes (R297, R311). -/
def tensorOfWords (ws : List Word) (h : Word) (serial : Nat) (asid : BitVec 12) (creator : Nat) (x : Scope) : Tensor where
  handle := h
  serial := serial
  asid := asid
  creator := creator
  scope := x
  rank := field (ws.getD 0 0) 20 2
  fmt := Fmt.ofCode ((ws.getD 0 0).extractLsb' 16 4)
  d0 := field (ws.getD 1 0) 0 32
  d1 := field (ws.getD 1 0) 32 32
  d2 := field (ws.getD 2 0) 0 32
  d3 := field (ws.getD 2 0) 32 32
  rep := (ws.getD 0 0).setWidth 16
  pending := 0
  askers := []
  reform := false
  want := none
  form := 0
  st := .ready

/-- Adding a tensor, whose handle is issued. -/
def State.addTensor (s : State) (t : Tensor) : State := { s with tensors := t :: s.tensors, handles := t.handle :: s.handles }

/-- tnew (R311): it writes 0 where there is no storage, which is a free choice (log 9). Its tensor-argument trap has no handle to name:
DESIGN CHOICE (log 53), ADDR is 0. -/
def execTnew (x : Ext) (s : State) : Result :=
  .next (s.tens x [x.oa] (some x.od) 12 fun a _ _ s => do
    require (x.scp != .core) 0x0701
    require (a.toNat % 64 == 0) 0x0200 a
    let (ws, s) ← s.loadWords a 8
    require (descriptorOk ws) 0x0701
    if !Config.freeStorage s.free then s.drew.writeS (opdOf x.od) 0
    else
      let h := s.freshHandle
      let t := (tensorOfWords ws h (s.ids + 1) (s.core.aspace.extractLsb' 52 12) s.coreId x.scp).formed
        (Config.freeForm s.free).toNat
      (s.drew.numbered.addTensor t).writeS (opdOf x.od) h)

/-- tfree (R312): FREED from its acceptance. -/
def execTfree (x : Ext) (s : State) : Result :=
  .next (s.tens x [x.oa] none 12 fun a _ _ s => do
    let t ← s.named a
    .ok ((s.accept a 0 .free).setTensor { t with st := .freed }))

/-- An address space ends: its handles are FREED (R295). A later address space of the same ASID that names one of them finds it FREED,
as one of its own that was freed (DEDUCED, log 9). -/
def State.endSpace (s : State) (asid : BitVec 12) : State :=
  { s with tensors := s.tensors.map fun t => if t.asid = asid then { t with st := .freed } else t }

/-- Whether a format may have a repertoire (R299). -/
def repOk (f : Fmt) (rep : BitVec 16) : Bool := !(f == .e2m1x && rep &&& 0x2F8 != 0)

/-- twiden (R312). -/
def execTwiden (x : Ext) (s : State) : Result :=
  .next (s.tens x [x.oa, x.ob] none 12 fun a b _ s => do
    let t ← s.named a
    let bits := b.setWidth 16
    require (field b 16 48 == 0 && repOk t.fmt (t.rep ||| bits)) 0x0701 a
    let new := bits &&& ~~~t.rep
    if new = 0 then .ok s
    else .ok (s.setTensor { t with pending := t.pending ||| new, askers := if t.askers.contains s.self then t.askers else s.self :: t.askers }))

/-- The element that two index words name, if it is in the tensor. -/
def Tensor.index (t : Tensor) (b c : Word) : Option Nat :=
  let i0 := field b 0 32
  let i1 := field b 32 32
  let i2 := field c 0 32
  let i3 := field c 32 32
  if i0 < t.d0 && i1 < t.d1 && i2 < t.d2 && i3 < t.d3 then some (t.at i0 i1 i2 i3) else none

/-- Whether a code fits a format's width (R313). -/
def codeFits (f : Fmt) (x : Word) : Bool := x.toNat < 2 ^ elemWidth f

/-- tget (R313): it waits until it may be performed. -/
def execTget (x : Ext) (s : State) : Result :=
  .next (s.tens x [x.oa, x.ob, x.oc] (some x.od) 12 fun a b c s => do
    let t ← s.named a
    match t.index b c with
    | none => trapAt 0x0701 a
    | some n =>
      needBit 0 [t]
      if t.st = .reforming || s.tops.any (fun o => o.from_.ident == s.slot.par.ident && o.names a) then
        .error (.hold (·.tensorProgress))
      else
        let s ← s.tensorScan s.self t [n] fun _ => t.d0 == 1 || t.d1 == 1
        let (code, s) := s.readElem s.self t n
        s.writeS (opdOf x.od) (BitVec.ofNat 64 code))

/-- tset (R313). -/
def execTset (x : Ext) (s : State) : Result :=
  .next (s.issue (tensChecks [x.oa, x.ob, x.oc, x.od] none) (scalarsOf [x.oa, x.ob, x.oc, x.od]) .drain fun s => do
    s.twiceCheck (linksOf (scalarsOf [x.oa, x.ob, x.oc, x.od]))
    let (a, s) ← s.readS (opdOf x.oa)
    let (b, s) ← s.readS (opdOf x.ob)
    let (c, s) ← s.readS (opdOf x.oc)
    let (v, s) ← s.readS (opdOf x.od)
    let t ← s.named a
    match t.index b c with
    | none => trapAt 0x0701 a
    | some n =>
      require (codeFits t.fmt v) 0x0701 a
      needBit 1 [t]
      .ok ((s.accept a 0 (.set n v.toNat)).advance 12))

/-- The fill of a handle with a code. -/
def State.fillTensor (s : State) (a v : Word) : Act State := do
  let t ← s.named a
  require (codeFits t.fmt v) 0x0701 a
  needBit 2 [t]
  .ok (s.accept a 0 (.fill v.toNat))

/-- tfill (R313). -/
def execTfill (x : Ext) (s : State) : Result := .next (s.tens x [x.oa, x.ob] none 12 fun a b _ s => s.fillTensor a b)

/-- tfill with a literal (R313). -/
def execTfillLiteral (x : Ext) (lit : Word) (s : State) : Result :=
  .next (s.tens x [x.oa] none 20 fun a _ _ s => s.fillTensor a lit)

/-- The saturate bit of IMM (R310). -/
def immSat (x : Ext) : Bool := x.imm.getLsbD 0

/-- tscale (R314). -/
def execTscale (x : Ext) (s : State) : Result :=
  .next (s.tens x [x.oa, x.ob] none 12 fun a b _ s => do
    let t ← s.named a
    needBit 3 [t]
    .ok (s.accept a 0 (.scale b (modeOf x.ro none s.slot.status) (immSat x))))

/-- A TENS instruction that names a destination and one or two source handles. -/
def State.tens2 (s : State) (x : Ext) (srcs : List Spec) (body : Word → Word → Word → State → Act State) : State :=
  s.tens x srcs (some x.od) 12 fun a b _ s => body (match x.od with | .s (.w n) => wGet s.slot.w n | _ => 0) a b s

/-- tadd (R314). -/
def execTadd (x : Ext) (s : State) : Result :=
  .next (s.tens2 x [x.oa, x.ob] fun d a b s => do
    let td ← s.named d
    let ta ← s.named a
    let tb ← s.named b
    require (td.dims == ta.dims && ta.dims == tb.dims) 0x0701 d
    needBit 4 [td, ta, tb]
    .ok (s.accept d a (.add b (modeOf x.ro none s.slot.status) (immSat x))))

/-- A reduction or transpose of a into d: distinct handles and a shape (R315). Where several handles make the operands wrong
together, by shape, format or identity, the trap's ADDR is the destination: DESIGN CHOICE (log 53), as in `tadd` and `tconv`. -/
def State.shaped (s : State) (d a : Word) (bit : Nat) (ok : Tensor → Tensor → Bool) (work : TWork) : Act State := do
  let td ← s.named d
  let ta ← s.named a
  require (d != a && ok td ta) 0x0701 d
  needBit bit [td, ta]
  .ok (s.accept d a work)

/-- trowsum (R315). -/
def execTrowsum (x : Ext) (s : State) : Result :=
  .next (s.tens2 x [x.oa] fun d a _ s =>
    s.shaped d a 5 (fun td ta => td.dims == (ta.d1, ta.d2, ta.d3, 1)) (.rowSum (modeOf x.ro none s.slot.status) (immSat x)))

/-- tcolsum (R315). -/
def execTcolsum (x : Ext) (s : State) : Result :=
  .next (s.tens2 x [x.oa] fun d a _ s =>
    s.shaped d a 6 (fun td ta => td.dims == (ta.d0, ta.d2, ta.d3, 1)) (.colSum (modeOf x.ro none s.slot.status) (immSat x)))

/-- trowmax (R315). -/
def execTrowmax (x : Ext) (s : State) : Result :=
  .next (s.tens2 x [x.oa] fun d a _ s =>
    s.shaped d a 7 (fun td ta => td.dims == (ta.d1, ta.d2, ta.d3, 1)) (.rowMax (modeOf x.ro none s.slot.status) (immSat x)))

/-- ttrans (R315). -/
def execTtrans (x : Ext) (s : State) : Result :=
  .next (s.tens2 x [x.oa] fun d a _ s =>
    s.shaped d a 8 (fun td ta => td.fmt == ta.fmt && td.dims == (ta.d1, ta.d0, ta.d2, ta.d3)) .trans)

/-- The cue of tconv has no formats and no scales (R314). -/
def convCueBad (cue : Option (BitVec 24)) : Bool := match cue with | some c => c &&& 0x007FFF != 0 | none => false

/-- tconv (R314), which takes formats: its cue gives RND and SAT. -/
def execTconv (x : Ext) (s : State) : Result :=
  let cue := s.pendingCue
  let c := tensChecks [x.oa] (some x.od)
  .next (s.issue { c with formats := true, operand := c.operand || convCueBad cue } (scalarsOf [x.oa, x.od]) .drain fun s => do
    let (a, s) ← s.readS (opdOf x.oa)
    let d := match x.od with | .s (.w n) => wGet s.slot.w n | _ => 0
    let td ← s.named d
    let ta ← s.named a
    require (td.dims == ta.dims) 0x0701 d
    needBit 9 [td, ta]
    let sat := match cue with | some c => c.getLsbD 15 | none => false
    let s := s.accept d a (.conv (modeOf x.ro cue s.slot.status) sat)
    .ok (State.advance { s with slot := s.slot.takeCue } 12))

/-- Every element of a layout's walk is resolved for an access (R316). -/
def State.resolveWalk (s : State) (n : Nat) (k : Acc) : List (Option (Word × Nat)) → Act State
  | [] => .ok s
  | none :: es => s.resolveWalk n k es
  | some e :: es => do
    let (_, s) ← s.resolve false e.1 n k
    s.resolveWalk n k es

/-- The halves of a copy command's flags. -/
def Ext.acqScope (x : Ext) : Option Scope := if x.acq then some x.scp else none
def Ext.relScope (x : Ext) : Option Scope := if x.rel then some x.scp else none

/-- The copy of a tensor through a layout record (R316). DESIGN CHOICE (log 53): an instruction that meets several of the chapter's own
checks raises tensor argument, 0x0701, before repertoire, 0x0702, as every one that names handles does here; of a copy, the repertoire
is checked after its pages' translation faults. -/
def State.tensorCopy (s : State) (x : Ext) (bit : Nat) (k : Acc) (work : Layout → TWork) : State :=
  s.tens x [x.oa, x.ob] none 12 fun a b _ s => do
    let t ← s.named a
    let (l, s) ← s.readLayout b
    require (l.fmt == t.fmt && (l.e0, l.e1, l.e2, l.e3) == t.dims) 0x0701 a
    let s ← s.resolveWalk (elemBytes l.fmt) k l.walk
    needBit bit [t]
    let cmd := s.origin.agent s.coreId (.tensor a)
    .ok ((s.accept a 0 (work l)).passOn s.self cmd)

/-- tcopyin (R316). -/
def execTcopyin (x : Ext) (s : State) : Result :=
  .next (s.tensorCopy x 15 .load fun l => .copyIn l (Sys2Proof.Machine.Ext.acqScope x) (Sys2Proof.Machine.Ext.relScope x))

/-- tcopyout (R316). -/
def execTcopyout (x : Ext) (s : State) : Result :=
  .next (s.tensorCopy x 14 .store fun l => .copyOut l (Sys2Proof.Machine.Ext.acqScope x) (Sys2Proof.Machine.Ext.relScope x))

/-- Whether an operation of the focused context that names a handle, or any, is not yet performed (R317). -/
def State.tensorsPending (s : State) (h : Option Word) : Bool :=
  s.tops.any fun o => o.from_.ident == s.slot.par.ident && (match h with | some h => o.names h | none => true)

/-- Whether an accepted tensor operation of the focused context is not yet performed: its release halves wait for it (R270, R273,
R296). -/
def State.elementsPending (s : State) : Bool :=
  s.tops.any fun o => o.from_.ident == s.slot.par.ident

/-- tsync (R317). The handle is judged when the instruction is issued, not again while it waits. -/
def execTsync (x : Ext) (s : State) : Result :=
  .next (s.issue (tensChecks [x.oa] none) (scalarsOf [x.oa]) .drain fun s => do
    let (a, t) ← s.readS (opdOf x.oa)
    let h := if x.oa = Spec.zero then none else some a
    match h with
    | some a =>
      if s.slot.st = .waiting then .ok ()
      else do
        let _ ← t.named a
        .ok ()
    | none => .ok ()
    if t.tensorsPending h then .error (.wait s.waits.tensorProgress)
    else
      let t := t.covered fun _ e => match e with
        | .tensor k => (match h with | some h => h == k | none => true)
        | _ => false
      .ok (t.yieldPoint.advance 12))

/-- What tinfo reads (R318). -/
def State.tensorInfo (s : State) (t : Tensor) (sel : Nat) : Word :=
  if t.st = .freed then (if sel = 1 then BitVec.ofNat 64 (2 * 2 ^ 32) else 0)
  else
    match sel with
    | 0 => t.form
    | 1 => BitVec.ofNat 64 (t.rep.toNat + t.pending.toNat * 2 ^ 16 + (if t.st = .reforming then 2 ^ 32 else 0))
    | 2 => BitVec.ofNat 64 (t.rank * 2 ^ 20 + t.fmt.code.toNat * 2 ^ 16 + t.d0 * 2 ^ 40)
    | _ => BitVec.ofNat 64 (s.inFlight t.handle)

/-- tinfo (R318). -/
def execTinfo (x : Ext) (s : State) : Result :=
  .next (s.tens x [x.oa] (some x.od) 12 fun a _ _ s => do
    let t ← s.namedAny a
    s.writeS (opdOf x.od) (s.tensorInfo t (x.imm.toNat % 4)))

end Sys2Proof.Machine
end

