-- ==== Sys2Proof/Machine/Sync.lean ====
section
/-! DEFINITION. Curtain halves, scoped accesses and atomics, curtains, the succession of kernels, barriers and the
handing over of tiles (R120-R124, R237-R241, R260, R270-R286). -/

namespace Sys2Proof.Machine

/-! ### Halves (R270, R296, R308) -/

/-- A release half of the focused context: it waits for the context's accepted tensor operations, whose writes it publishes and
whose reads may return nothing later (R273, R296), and may be a trigger. -/
def State.releaseHalf (s : State) (x : Scope) : Act State :=
  if s.elementsPending then .error (.hold (·.tensorProgress))
  else .ok ((s.release s.self x).trigger s.self (s.core.aspace.extractLsb' 52 12) x)

/-- An acquire half of the focused context. -/
def State.acquireHalf (s : State) (x : Scope) : State := (s.acquire s.self x).trigger s.self (s.core.aspace.extractLsb' 52 12) x

/-- Whether a device access of the focused context's present scalar instruction has been asked for (R389, R416). -/
def State.requested (s : State) : Bool :=
  s.slot.par.io.waiting.isSome || !s.slot.par.io.got.isEmpty || (match s.slot.par.request with | .ioAtomic _ _ _ _ _ _ _ => true | _ => false)

/-- The half of a REL flag; the one before a device access that has been asked for has been performed (R276). -/
def State.relFlag (s : State) (x : Ext) : Act State := if x.rel && !s.requested then s.releaseHalf x.scp else .ok s
/-- The half of an ACQ flag. -/
def State.acqFlag (s : State) (x : Ext) : State := if x.acq then s.acquireHalf x.scp else s

/-! ### Scoped accesses (R120, R121) -/

/-- An access that follows a release half, in the state after the half: where it asks a device and waits, the half has been performed
(R276). -/
def State.afterHalf (s : State) (r : Act α) : Act α :=
  match r with
  | .error (.hold f) => .error (.hold fun t => let u := f (s.unread t); if u.requested then u else f t)
  | r => r

/-- The pace of a scoped load: a load's, unless it performs a half. -/
def scopedPace (x : Ext) : Pace := if x.acq || x.rel then .drain else .load

/-- A scoped load of n bytes. -/
def State.scopedLoad (s : State) (x : Ext) (n : Nat) : State :=
  s.issue (specChecks [x.oa] [x.od]) (scalarsOf [x.od, x.oa]) (scopedPace x) fun s => do
    let (a, s) ← s.readS (opdOf x.oa)
    let s ← s.relFlag x
    let (v, s) ← s.afterHalf (s.loadWord (.scoped x.scp) (a + x.imm.signExtend 64) n)
    let s := s.acqFlag x
    let s ← s.writeS (opdOf x.od) (sextBytes n v)
    .ok (s.advance 12)

/-- A scoped store of n bytes of a source at an address plus an offset. -/
def State.scopedStore (s : State) (x : Ext) (src : Spec) (off : Word) (n : Nat) : State :=
  s.issue (specChecks [x.oa, src] []) (scalarsOf [x.oa, src]) .drain fun s => do
    s.twiceCheck (linksOf (scalarsOf [x.oa, src]))
    let (a, s) ← s.readS (opdOf x.oa)
    let (v, s) ← s.readS (opdOf src)
    let s ← s.relFlag x
    let s ← s.storeWord (some x.scp) (a + off) n v
    .ok ((s.acqFlag x).advance 12)

/-- ldx.w (R121). -/
def execLdxW (x : Ext) (s : State) : Result := .next (s.scopedLoad x 4)

/-- ldx.d (R121). -/
def execLdxD (x : Ext) (s : State) : Result := .next (s.scopedLoad x 8)

/-- amld.d (R121). -/
def execAmldD (x : Ext) (s : State) : Result := .next (s.scopedLoad x 8)

/-- stx.w (R121). -/
def execStxW (x : Ext) (s : State) : Result := .next (s.scopedStore x x.od (x.imm.signExtend 64) 4)

/-- stx.d (R121). -/
def execStxD (x : Ext) (s : State) : Result := .next (s.scopedStore x x.od (x.imm.signExtend 64) 8)

/-- amst.d (R121). -/
def execAmstD (x : Ext) (s : State) : Result := .next (s.scopedStore x x.ob 0 8)

/-! ### Atomics (R122-R124, R276, R389) -/

/-- Whether AtomicOps are carried to a key: its root port has AtomicOp requests enabled, and the operating system has marked the
window there as an AtomicOp completer (R389). -/
def State.takesAtomics (s : State) (key : Nat) : Bool :=
  let c := s.ctlAt (key / 2 ^ 50 % 4)
  c.atomicPorts.contains (key / 2 ^ 46 % 8) && c.atomicWindows.any fun w => w.1 ≤ key && key < w.1 + w.2

/-- An atomic on n bytes in I/O space with operands b and c (R389): carried over PCIe as an AtomicOp, whose completion it
waits for, or not carried. -/
def State.ioAtomic (s : State) (carried : Option AtomicReq) (va : Word) (key n : Nat) (b c : Word) : Act (Word × State) :=
  match s.slot.par.request with
  | .ioAtomic _ _ _ _ _ true (some old) => .ok (old, s)
  | .ioAtomic _ _ _ _ _ true none => trapAt 0x0B02 va
  | .ioAtomic _ _ _ _ _ false _ => blockOn .other
  | _ =>
    match carried with
    | none => trapAt 0x0B02 va
    | some op =>
      if s.takesAtomics key && key / 2 ^ 46 % 8 != 7 then
        .error (.hold fun s => s.setPar { s.slot.par with request := .ioAtomic op key n b c false none })
      else trapAt 0x0B02 va

/-- The bytes that an atomic at a scope reads at its location: outside scratchpad one at `core` reads after an acquire half at
`core` for its location (R271 item 3, R276). -/
def State.atomicRead (s : State) (x : Scope) (key n : Nat) : List Byte × State :=
  if isScratch key || x != .core then s.loadHome s.self key n
  else ((s.acquireOf s.self .core fun r => r.touches key n).coreBound s.self key n).loadPlain s.self key n

/-- Whether the route from a node of a package to a location crosses a package that refuses forwarded atomics (R388, R400). -/
def State.refusedFrom (s : State) (p node key : Nat) : Bool :=
  match s.routeTo p node key with
  | .through t => (s.ctlAt t).fwdcfg.getLsbD 0
  | _ => false

/-- The same for an atomic of the focused context. -/
def State.refusedForward (s : State) (key : Nat) : Bool := s.refusedFrom (pkgOf s.coreId) (dieOf s.coreId % 8) key

/-- One atomic on n bytes, with a function of the old value, b and c: the old value (R122, R276). -/
def State.atomic (s : State) (x : Scope) (carried : Option AtomicReq) (va : Word) (n : Nat) (f : Word → Word → Word → Word) (b c : Word) :
    Act (Word × State) := do
  require (va.toNat % n == 0) 0x0200 va
  let (key, s) ← s.resolve false va n .atomic
  require (!s.refusedForward key) 0x0B02 va
  if isIo key then s.ioAtomic carried va key n b c
  else
    let s ← s.checkRead s.self key n
    let (bs, s) := s.atomicRead x key n
    let s ← s.storeKey s.self key (toBytes n (f (wordOf bs) b c).toNat) (some x)
    .ok (wordOf bs, s)

/-- An atomic instruction on n bytes with a function of the old value, b and c. -/
def State.atomicOp (s : State) (x : Ext) (n : Nat) (cas : Bool) (carried : Option AtomicReq) (f : Word → Word → Word → Word) : State :=
  let srcs := if cas then [x.oa, x.ob, x.oc] else [x.oa, x.ob]
  s.issue (specChecks srcs [x.od]) (scalarsOf (x.od :: srcs)) .drain fun s => do
    s.twiceCheck (linksOf (scalarsOf srcs))
    let (a, s) ← s.readS (opdOf x.oa)
    let (b, s) ← s.readS (opdOf x.ob)
    let (c, s) ← if cas then s.readS (opdOf x.oc) else .ok (0, s)
    let s ← s.relFlag x
    let (old, s) ← s.afterHalf (s.atomic x.scp carried a n f b c)
    let s := s.acqFlag x
    let s ← s.writeS (opdOf x.od) (sextBytes n old)
    .ok (s.advance 12)

/-- The smaller and the larger of two values, signed at n bytes. -/
def signedMin (n : Nat) (a b : Word) : Word := if (sextBytes n a).sle (sextBytes n b) then a else b
def signedMax (n : Nat) (a b : Word) : Word := if (sextBytes n b).sle (sextBytes n a) then a else b

/-- amcas at n bytes. -/
def casValue (n : Nat) (old b c : Word) : Word := if old.toNat = c.toNat % 2 ^ (8 * n) then b else old

/-- amadd.w (R122). -/
def execAmaddW (x : Ext) (s : State) : Result := .next (s.atomicOp x 4 false (some .fetchAdd) fun o b _ => o + b)

/-- amadd.d (R122). -/
def execAmaddD (x : Ext) (s : State) : Result := .next (s.atomicOp x 8 false (some .fetchAdd) fun o b _ => o + b)

/-- ammin.w (R122). -/
def execAmminW (x : Ext) (s : State) : Result := .next (s.atomicOp x 4 false none fun o b _ => signedMin 4 o b)

/-- ammin.d (R122). -/
def execAmminD (x : Ext) (s : State) : Result := .next (s.atomicOp x 8 false none fun o b _ => signedMin 8 o b)

/-- ammax.w (R122). -/
def execAmmaxW (x : Ext) (s : State) : Result := .next (s.atomicOp x 4 false none fun o b _ => signedMax 4 o b)

/-- ammax.d (R122). -/
def execAmmaxD (x : Ext) (s : State) : Result := .next (s.atomicOp x 8 false none fun o b _ => signedMax 8 o b)

/-- amcas.w (R122). -/
def execAmcasW (x : Ext) (s : State) : Result := .next (s.atomicOp x 4 true (some .cas) fun o b c => casValue 4 o b c)

/-- amcas.d (R122). -/
def execAmcasD (x : Ext) (s : State) : Result := .next (s.atomicOp x 8 true (some .cas) fun o b c => casValue 8 o b c)

/-- amand.d (R122). -/
def execAmandD (x : Ext) (s : State) : Result := .next (s.atomicOp x 8 false none fun o b _ => o &&& b)

/-- amor.d (R122). -/
def execAmorD (x : Ext) (s : State) : Result := .next (s.atomicOp x 8 false none fun o b _ => o ||| b)

/-- amxor.d (R122). -/
def execAmxorD (x : Ext) (s : State) : Result := .next (s.atomicOp x 8 false none fun o b _ => o ^^^ b)

/-- amswap.d (R122). -/
def execAmswapD (x : Ext) (s : State) : Result := .next (s.atomicOp x 8 false (some .swap) fun _ b _ => b)

/-- amfadd.w (R122, R123). -/
def execAmfaddW (x : Ext) (s : State) : Result :=
  .next (s.atomicOp x 4 false none fun o b _ => BitVec.ofNat 64 (fadd (o.toNat % 2 ^ 32) (b.toNat % 2 ^ 32)))

/-! ### Curtains and the succession of kernels (R283-R286) -/

/-- curtn (R284). -/
def execCurtn (x : Ext) (s : State) : Result :=
  .next (s.issue {} [] .drain fun s => do
    let s ← s.releaseHalf x.scp
    .ok ((s.acquireHalf x.scp).advance 12))

/-- curtn.rel (R284). -/
def execCurtnRel (x : Ext) (s : State) : Result :=
  .next (s.issue {} [] .drain fun s => do
    let s ← s.releaseHalf x.scp
    .ok (s.advance 12))

/-- curtn.acq (R284). -/
def execCurtnAcq (x : Ext) (s : State) : Result := .next (s.issue {} [] .drain fun s => .ok ((s.acquireHalf x.scp).advance 12))

/-- The succgo count after one more (R285). -/
def Kernel.succgoes (k : Kernel) : Kernel := { k with succgo := min (k.succgo + 1) (2 ^ 32 - 1) }

/-- succgo (R285). -/
def execSuccgo (_x : Ext) (s : State) : Result :=
  .next (s.issue {} [] .drain fun s => .ok ((s.mapKernel s.slot.par.kid Kernel.succgoes).advance 12))

/-- Whether a kernel runs: it has not ended and no stop has begun. -/
def Kernel.runs (k : Kernel) : Bool := k.ended.isNone && !k.stopping

/-- What `predwait` writes, once its wait is over (R286). -/
def State.predOutcome (s : State) : Option Word :=
  match s.kernel with
  | none => some 2
  | some k =>
    match k.pred with
    | none => some 2
    | some p =>
      match (s.kernelAt p).bind (·.ended) with
      | some e => some (if (e == 1 || e == 2) && k.runs then 1 else 0)
      | none => if k.runs then none else some 0

/-- What a `predwait` that writes r publishes to its context (R272, R286). -/
def State.acquirePred (s : State) (x : Scope) (r : Word) : State :=
  match s.kernel.bind (·.pred) with
  | some p => if r = 1 then (s.acquireHalf x).acquireFrom s.self x p else s.acquireHalf x
  | none => s.acquireHalf x

/-- predwait (R286). -/
def execPredwait (x : Ext) (s : State) : Result :=
  .next (s.issue (tensChecks [] (some x.od)) (scalarsOf [x.od]) .drain fun s =>
    match s.predOutcome with
    | none => .error (.wait (State.setPar s.waits { s.waits.slot.par with predWaits := true }))
    | some r => do
      let s ← (s.acquirePred x.scp r).writeS (opdOf x.od) r
      .ok (s.yieldPoint.advance 12))

/-! ### The sum-combining tree's barriers (R237-R241) -/

/-- A barrier as acceptance leaves it. -/
def Barrier.fresh : Barrier := { done := 0, open_ := [], next := [], held := [], pending := 0, op := .add, last := 0 }

/-- A kernel's barrier. -/
def Kernel.barrier (k : Kernel) (n : Nat) : Barrier := assocGet Barrier.fresh n k.barriers
def Kernel.setBarrier (k : Kernel) (n : Nat) (b : Barrier) : Kernel := { k with barriers := assocSet n b k.barriers }

/-- Whether a generation has as many arrivals as members. -/
def genFull (l : List Arrival) : Bool := match l with | [] => false | a :: _ => l.length ≥ a.members

/-- The operation that a generation's arrivals have fixed (R238). -/
def genOp (l : List Arrival) : Option TreeOp := l.findSome? fun a => a.contrib.map (·.1)

/-- Whether an arrival matches a generation (R238). -/
def Arrival.matches (a : Arrival) (l : List Arrival) : Bool :=
  match l with
  | [] => true
  | b :: _ => a.members == b.members && a.gather == b.gather
      && (match a.contrib, genOp l with | some (o, _), some p => o == p | _, _ => true)

/-- Where an arrival goes. -/
inductive Joined where
  | open_ | next | held | mismatch
  deriving DecidableEq, Repr

/-- The tree's decision (R238). -/
def Barrier.decide (b : Barrier) (a : Arrival) : Joined :=
  if genFull b.open_ then
    if genFull b.next then .held else if a.matches b.next then .next else .mismatch
  else if a.matches b.open_ then .open_ else .mismatch

/-- Combining two values under an operation (R240); fadd's are pairs (s, c). -/
def TreeOp.combine (op : TreeOp) (x y : Word) : Word :=
  match op with
  | .add => x + y
  | .min => if x.sle y then x else y
  | .max => if y.sle x then x else y
  | .fadd =>
    let t := twosum (field x 0 32) (field y 0 32)
    let c := Sys2Proof.Machine.fadd (Sys2Proof.Machine.fadd (field x 32 32) t.lo) (field y 32 32)
    BitVec.ofNat 64 (t.hi + c * 2 ^ 32)

/-- What an operation starts from (R240). -/
def TreeOp.start : TreeOp → Word
  | .add => 0
  | .fadd => 0
  | .min => 0x7FFFFFFFFFFFFFFF
  | .max => 0x8000000000000000

/-- The last step of a combination: fadd's pair becomes (hi, lo) (R200, R240). -/
def TreeOp.finish (op : TreeOp) (x : Word) : Word :=
  match op with
  | .fadd => let t := twosum (field x 0 32) (field x 32 32); BitVec.ofNat 64 (t.hi + t.lo * 2 ^ 32)
  | _ => x

/-- Inserting an arrival in ascending order of virtual core and slot, after its equals. -/
def insertArrival (a : Arrival) : List Arrival → List Arrival
  | [] => [a]
  | b :: bs => if a.vcore < b.vcore || (a.vcore == b.vcore && a.slot < b.slot) then a :: b :: bs else b :: insertArrival a bs

/-- The combined result of a generation under an operation (R240). -/
def combined (op : TreeOp) (l : List Arrival) : Word :=
  op.finish (((l.foldl (fun acc a => insertArrival a acc) []).filterMap fun a => a.contrib.map (·.2)).foldl op.combine op.start)

/-- The gather record of a generation (R241). -/
def gatherRecord (l : List Arrival) : List Byte :=
  let es := l.filterMap (·.evc)
  let at_ (e : Vector (BitVec 32) 16) (i : Nat) : Nat := ((e.toList).getD i 0).toNat
  let sum (i : Nat) : Nat := (es.map fun e => at_ e i).sum
  let sat (i : Nat) : Bool := sum i > 2 ^ 32 - 1 || es.any fun e => at_ e i == 2 ^ 32 - 1
  (List.range 16).flatMap (fun i => toBytes 4 (min (sum i) (2 ^ 32 - 1)))
    ++ toBytes 8 (((List.range 16).map fun i => if sat i then 2 ^ i else 0).sum)
    ++ toBytes 8 es.length ++ List.replicate 48 0

/-- The tree writes a gather record as plain stores at the core whose arrival completed the generation; a record whose
address is refused is reported and not written. Where the write has to wait (R385, R395), or its page is to be resolved,
so does the generation: none, and the state in which the tree has asked. -/
def State.writeGather (s : State) (kid bar : Nat) (g : BitVec 32) (core addr : Nat) (data : List Byte) : Bool × State :=
  let va := BitVec.ofNat 64 addr
  match s.cmdWrite (.tree kid core) core va data (some (kid, bar, g.toNat, true)) with
  | .ok t => (true, t)
  | .error (.fault c a) => (true, s.reportAct kid core c a)
  | .error (.check t) => (true, s.reportCheck kid core t)
  | .error (.missing a) => (false, s.requestPage core none a)
  | .error (.stall (some key)) => (false, s.queueRequest key (.tree kid bar g))
  | .error (.stall none) => (false, s)

/-- A slot whose held arrival has joined a generation: its contributions are delivered. -/
def Slot.joined (x : Slot) (bar : Nat) (g : Word) : Slot :=
  { x with par := { x.par with request := .arrival bar (some g), contribs := x.par.contribs.filter fun c => c.barrier != bar } }

/-- An arrival's number reaches its context, whose `bar.arr` was held (R238). -/
def State.arrivalJoined (s : State) (a : Arrival) (bar : Nat) (g : Word) : State :=
  s.mapContext a.core a.ident fun x => Sys2Proof.Machine.Slot.joined x bar g

/-- The counters that an arrival adds: a snapshot of its core's, which `clear` then clears (R241). -/
def State.snapped (s : State) (a : Arrival) : Arrival × State :=
  if a.gather.isNone then (a, s)
  else
    let k := s.coreAt a.core
    ({ a with evc := some k.evc }, if a.clear then s.setCore a.core { k with evc := Vector.replicate 16 0 } else s)

/-- Held arrivals are decided on again, in order (R238). -/
def State.rejoin (s : State) (kid bar : Nat) : List Arrival → State
  | [] => s
  | a :: as =>
    match s.kernelAt kid with
    | none => s
    | some k =>
      let b := k.barrier bar
      match b.decide a with
      | .held => State.rejoin (s.setKernel (k.setBarrier bar { b with held := b.held ++ [a] })) kid bar as
      | .mismatch => State.rejoin s kid bar as
      | .open_ =>
        let (a, s) := s.snapped a
        State.rejoin ((s.setKernel (k.setBarrier bar { b with open_ := b.open_ ++ [a] })).arrivalJoined a bar (b.done.setWidth 64)) kid bar as
      | .next =>
        let (a, s) := s.snapped a
        State.rejoin ((s.setKernel (k.setBarrier bar { b with next := b.next ++ [a] })).arrivalJoined a bar ((b.done + 1).setWidth 64))
          kid bar as

/-- The operation of a generation: what its arrivals have fixed, else the barrier's (R240). -/
def Barrier.genOp (b : Barrier) : TreeOp := (Sys2Proof.Machine.genOp b.open_).getD b.op

/-- A generation's record is written and it completes (R237): the combined result, then C. -/
def State.closeGen (s : State) (kid bar : Nat) (b : Barrier) : State :=
  let after : Barrier := { b with done := b.done + 1, open_ := b.next, next := [], held := [], op := b.genOp, last := combined b.genOp b.open_ }
  (s.mapKernel kid fun k => k.setBarrier bar after).rejoin kid bar b.held

/-- A generation completes, unless its gather record has to wait (R237, R241). -/
def State.completeGen (s : State) (k : Kernel) (bar : Nat) : Bool × State :=
  let b := k.barrier bar
  match b.open_.head?.bind (·.gather) with
  | some addr =>
    let r := s.writeGather k.kid bar b.done ((b.open_.getLast?.map (·.core)).getD 0) addr (gatherRecord b.open_)
    if r.1 then (true, r.2.closeGen k.kid bar b) else r
  | none => (true, s.closeGen k.kid bar b)

/-- Whether the open generation of a barrier has its arrivals and no byte pending. -/
def Barrier.due (b : Barrier) : Bool := genFull b.open_ && b.pending == 0

/-- The tree evaluates completion after an act (R279): generations complete while they can. -/
def State.evaluate (s : State) (kid bar : Nat) : Nat → State
  | 0 => s
  | n + 1 =>
    match s.kernelAt kid with
    | none => s
    | some k =>
      if (k.barrier bar).due then
        let r := s.completeGen k bar
        if r.1 then r.2.evaluate kid bar n else r.2
      else s

/-- The tree evaluates a barrier after an act. -/
def State.treeActs (s : State) (kid bar : Nat) : State :=
  match s.kernelAt kid with
  | some k => s.evaluate kid bar ((k.barrier bar).held.length + 3)
  | none => s

/-- The tree tries again to write the gather records that generations wait for. -/
def State.treesRetry (s : State) : State :=
  (s.kernels.flatMap fun k => (k.2.barriers.filter (·.2.due)).map fun b => (k.1, b.1)).foldl (fun s p => s.treeActs p.1 p.2) s

/-- The gather records that wait for a page which the operating system refuses are reported and not written, and their generations
complete (R241, R381): those of generations that an arrival of a core completed. -/
def State.gathersRefused (s : State) (core : Nat) : State :=
  let waiting := s.kernels.flatMap fun k => (k.2.barriers.filter (·.2.due)).filterMap fun b =>
    match b.2.open_.head?.bind (·.gather), b.2.open_.getLast?.map (·.core) with
    | some addr, some c => if c = core then some (k.1, b.1, addr) else none
    | _, _ => none
  waiting.foldl (fun s w =>
    match s.kernelAt w.1 with
    | none => s
    | some k =>
      let b := k.barrier w.2.1
      match s.cmdWrite (.tree w.1 core) core (BitVec.ofNat 64 w.2.2) (gatherRecord b.open_) (some (w.1, w.2.1, b.done.toNat, true)) with
      | .error (.missing a) => (((s.reportAct w.1 core 0x0A11 a).refusedAt core (.missing a)).closeGen w.1 w.2.1 b).treeActs w.1 w.2.1
      | _ => s) s

/-- An identifier register: below 64 (R237). -/
def barrierId (x : Word) : Act Nat := if x.toNat < 64 then .ok x.toNat else trapOf 0x0802

/-- The context's held contribution for a barrier (R240). -/
def Slot.contribution (x : Slot) (bar : Nat) : Option (TreeOp × Word) :=
  (x.par.contribs.find? fun c => c.barrier == bar).map fun c => (c.op, c.value)

/-- The arrival that the focused context makes. -/
def State.arrival (s : State) (bar members : Nat) (gather : Option Nat) (clear : Bool) : Arrival where
  vcore := s.slot.vcore.toNat
  core := s.coreId
  slot := s.slotId
  members := members
  gather := gather
  clear := clear
  contrib := s.slot.contribution bar
  evc := none
  ident := s.slot.par.ident

/-- The contributions for a barrier are delivered. -/
def State.delivered (s : State) (bar : Nat) : State :=
  s.setPar { s.slot.par with contribs := s.slot.par.contribs.filter fun c => c.barrier != bar }

/-- An arrival of the focused context joins a generation, whose number is `done` of its barrier plus `later`. -/
def State.join (s : State) (k : Kernel) (bar : Nat) (a : Arrival) (next : Bool) : State :=
  let (a, s) := s.snapped a
  let b := k.barrier bar
  let b := if next then { b with next := b.next ++ [a] } else { b with open_ := b.open_ ++ [a] }
  ((s.setKernel (k.setBarrier bar b)).delivered bar).treeActs k.kid bar

/-- bar.arr (R238). -/
def execBarArr (x : Ext) (s : State) : Result :=
  let gather := x.imm.getLsbD 0
  let srcs := [x.oa, x.ob] ++ (if gather then [x.oc] else [])
  .next (s.issue (specChecks srcs [x.od]) (scalarsOf (x.od :: srcs)) .drain fun s => do
    let s0 := s
    s.twiceCheck (linksOf (scalarsOf srcs))
    let (a, s) ← s.readS (opdOf x.oa)
    let (m, s) ← s.readS (opdOf x.ob)
    let (c, s) ← if gather then s.readS (opdOf x.oc) else .ok (0, s)
    match s.slot.par.request with
    | .arrival _ (some g) => do
      let s ← s.writeS (opdOf x.od) g
      .ok (s.advance 12)
    | .arrival bar none => if (s.kernel.map fun k => (k.barrier bar).held.any fun h => h.core == s.coreId && h.ident == s.slot.par.ident) == some true
        then blockOn .other else trapOf 0x0803
    | _ => do
      let bar ← barrierId a
      require (1 ≤ m.toNat && m.toNat ≤ 2 ^ 24) 0x0802
      require (!gather || c.toNat % 128 == 0) 0x0200 c
      s.linksOk (linksOf (scalarsOf [x.od]))
      let s ← s.relFlag x
      match s.kernel with
      | none => trapOf 0x0802
      | some k =>
        let arr := s.arrival bar m.toNat (if gather then some c.toNat else none) (x.imm.getLsbD 1)
        let b := k.barrier bar
        match b.decide arr with
        | .mismatch => .ok ((s.unread s0).trapNow { cause := 0x0803 })
        | .held =>
          let t := (s.unread s0).setKernel (k.setBarrier bar { b with held := b.held ++ [arr] })
          .error (.hold fun _ => t.setPar { t.slot.par with request := .arrival bar none })
        | .open_ => do
          let t ← s.writeS (opdOf x.od) (b.done.setWidth 64)
          .ok ((t.join k bar arr false).advance 12)
        | .next => do
          let t ← s.writeS (opdOf x.od) ((b.done + 1).setWidth 64)
          .ok ((t.join k bar arr true).advance 12))

/-- Whether generation g of a barrier has completed (R239). -/
def Barrier.passed (b : Barrier) (g : BitVec 32) : Bool := 1 ≤ (b.done - g).toNat && (b.done - g).toNat ≤ 2 ^ 31

/-- bar.wait (R239). -/
def execBarWait (x : Ext) (s : State) : Result :=
  .next (s.issue (specChecks [x.oa, x.ob] [x.od]) (scalarsOf [x.od, x.oa, x.ob]) .drain fun s => do
    let s0 := s
    s.twiceCheck (linksOf (scalarsOf [x.oa, x.ob]))
    let (a, s) ← s.readS (opdOf x.oa)
    let (g, s) ← s.readS (opdOf x.ob)
    let bar ← barrierId a
    match s.kernel with
    | none => trapOf 0x0802
    | some k =>
      if (k.barrier bar).passed (g.setWidth 32) then do
        let s := s.passes s.self bar (g.toNat % 2 ^ 32)
        let s := if x.acq then (s.acquireBarrier s.self x.scp k.kid bar (g.toNat % 2 ^ 32)).trigger s.self (s.core.aspace.extractLsb' 52 12) x.scp
          else s
        let s ← s.writeS (opdOf x.od) 1
        .ok (s.yieldPoint.advance 12)
      else if !k.runs then do
        let s ← s.writeS (opdOf x.od) 0
        .ok (s.yieldPoint.advance 12)
      else waitHere s0)

/-- Adding to a barrier's pending count (R239): none when the result is out of range. -/
def Barrier.plus (b : Barrier) (d : Int) : Option Barrier :=
  let n := (b.pending : Int) + d
  if n < 0 || n > 2 ^ 56 - 1 then none else some { b with pending := n.toNat }

/-- bar.add (R239). -/
def execBarAdd (x : Ext) (s : State) : Result :=
  .next (s.issue (specChecks [x.oa, x.ob] []) (scalarsOf [x.oa, x.ob]) .drain fun s => do
    let s0 := s
    s.twiceCheck (linksOf (scalarsOf [x.oa, x.ob]))
    let (a, s) ← s.readS (opdOf x.oa)
    let (d, s) ← s.readS (opdOf x.ob)
    let bar ← barrierId a
    let s ← s.relFlag x
    match s.kernel with
    | none => trapOf 0x0802
    | some k =>
      match (k.barrier bar).plus d.toInt with
      | none => .ok ((s.unread s0).trapNow { cause := 0x0804 })
      | some b => .ok (((s.setKernel (k.setBarrier bar b)).treeActs k.kid bar).advance 12))

/-! ### own.give (R260) -/

/-- A window onto a home entry. -/
def windowEntry (home : Nat × Nat) (h : Word) : Word :=
  BitVec.ofNat 64 (2 ^ 60 + 2 ^ 59 + clusterPos home.1 * 2 ^ 54 + home.2 * 2 ^ 48 + tteLen h * 2 ^ 24 + tteOff h)

/-- The home entry as held by entry m of a core. -/
def heldBy (h : Word) (core m : Nat) : Word := setField (setField h 54 4 (clusterPos core)) 48 6 m

/-- The act of giving the buffer of entry n, whose home is given, to entry m of core t (R260): the writes made to it so far
count for every agent of the new holder. -/
def State.give (s : State) (n : Nat) (home : Nat × Nat) (t m : Nat) : State :=
  let here := s.coreId
  let s := if home = (here, n) then s.setTte here n (setBit (s.tteAt here n) 59 false)
    else (s.setTte here n (tteReset here n)).setTteTag here n 0
  let h := s.tteAt home.1 home.2
  let s := s.handTo t (spKey home.1 (tteOff h)) (tteLen h)
  if t = home.1 then s.setTte home.1 home.2 (heldBy (setBit h 59 true) t m)
  else ((s.setTte t m (windowEntry home h)).setTteTag t m s.slot.tag).setTte home.1 home.2 (heldBy h t m)

/-- Whether the target entry can take the buffer (R260). -/
def State.canTake (s : State) (home : Nat × Nat) (t m : Nat) : Bool :=
  if t = home.1 then m == home.2
  else
    let e := s.tteAt t m
    tteLen e == 0 && !tteWin e && (s.tteTagAt t m == 0 || s.tteTagAt t m == s.slot.tag)

/-- The number of a tile operand. -/
def tileOf (p : Spec) : Option Nat := match p with | .t n => some n.val | _ => none

/-- own.give (R260). -/
def execOwnGive (x : Ext) (s : State) : Result :=
  let c := specChecks [x.oa, x.ob] []
  .next (s.issue { c with operand := c.operand || (tileOf x.od).isNone } (scalarsOf [x.oa, x.ob]) .drain fun s => do
    s.twiceCheck (linksOf (scalarsOf [x.oa, x.ob]))
    let (tv, s) ← s.readS (opdOf x.oa)
    let (mv, s) ← s.readS (opdOf x.ob)
    let n := (tileOf x.od).getD 0
    match s.kernel.bind fun k => k.coreOf tv.toNat with
    | none => trapOf 0x0800
    | some t => do
      require (mv.toNat < 64) 0x0102
      require (s.ownsTile s.coreId s.slot.tag n) 0x0901
      require (clusterId t == clusterId s.coreId) 0x0902
      let h := s.homeEntry s.coreId n
      let home := s.tteHome s.coreId n
      if tteSt h = 1 || tteSt h = 3 || (tteSt h = 0 && tteFo h) then .error (.hold fun s => s.count 9 (Config.freeCycles s.free))
      else if s.tileNamed home 0 then blockOn .other
      else if t = s.coreId then do
        let s ← s.relFlag x
        .ok (s.advance 12)
      else do
        require (s.canTake home t mv.toNat) 0x0903
        let s ← s.relFlag x
        .ok ((s.give n home t mv.toNat).advance 12))

end Sys2Proof.Machine
end

