-- ==== Sys2Proof/Machine/Parallel.lean ====
section
/-! DEFINITION. The instructions of the parallel layer: messages, gain updates, residuals, spawns, key maps and
key-routed sends, gangs, tree contributions and results, and link claims (R226-R246). -/

namespace Sys2Proof.Machine

/-! ### Targets (R206, R227) -/

/-- The core of a virtual core index of the sender's grid. -/
def State.targetIndex (s : State) (x : Word) : Act Nat :=
  match s.kernel.bind fun k => k.coreOf x.toNat with
  | some c => .ok c
  | none => trapOf 0x0800

/-- The core that owns a data address. -/
def State.targetOwner (s : State) (a : Word) : Act Nat :=
  match s.kernel.bind fun k => k.coreOf (a.toNat / 256 % k.grid) with
  | some c => .ok c
  | none => trapOf 0x0800

/-- Whether a core can take one more message, with those in flight to it, and the gain updates that may become one
(R196): a sender waits here already, not where the message lands (DESIGN CHOICE, log 52). -/
def State.hasRoomAt (s : State) (c : Nat) : Bool :=
  let coming := (s.flight.filter fun f => match f with
    | .message _ _ _ d _ => d == c
    | .gain _ _ _ d _ _ => d == c
    | _ => false).length
  (s.coreAt c).heap.length + coming < Config.heapOnChip + Config.heapOverflow

/-- Traffic goes in flight. -/
def State.fly (s : State) (f : Flight) : State := { s with flight := s.flight ++ [f] }

/-! ### send, sendh, gainadd (R229-R231) -/

/-- Payload words loaded from an address. -/
def payload (ws : List Word) : Vector Word 7 := Vector.ofFn fun i => ws.getD i.val 0

/-- A header with the kernel's tag. -/
def State.tagged (s : State) (h : Word) : Word := setField h 16 10 s.slot.tag.toNat

/-- send and sendh. -/
def State.sendOp (s : State) (x : Ext) (target : State → Word → Act Nat) : State :=
  let n := x.imm.toNat % 8
  let srcs := [x.oa, x.ob] ++ (if n = 0 then [] else [x.oc])
  s.issue (specChecks srcs []) (scalarsOf srcs) .drain fun s => do
    s.twiceCheck (linksOf (scalarsOf srcs))
    let (a, s) ← s.readS (opdOf x.oa)
    let (h, s) ← s.readS (opdOf x.ob)
    let (p, s) ← if n = 0 then .ok (0, s) else s.readS (opdOf x.oc)
    let c ← target s a
    require (n == 0 || p.toNat % 8 == 0) 0x0200 p
    let (ws, s) ← s.loadWords p n
    if !s.hasRoomAt c then blockOn .other
    else
      let s ← s.relFlag x
      .ok ((s.fly (.message s.slot.par.kid s.coreId s.slot.par.ident c { header := s.tagged h, p := payload ws })).advance 12)

/-- send (R230). -/
def execSend (x : Ext) (s : State) : Result := .next (s.sendOp x State.targetIndex)

/-- sendh (R230). -/
def execSendh (x : Ext) (s : State) : Result := .next (s.sendOp x State.targetOwner)

/-- Whether a core has a message of the focused context's kernel with a key, with which a gain update merges (R198). -/
def State.merges (s : State) (c key : Nat) : Bool :=
  ((s.coreAt c).ofTag s.slot.tag.toNat).any fun m => hdrKey m.msg.header == key

/-- gainadd (R231): where its update would have to be inserted and nothing has room, the sender stalls (R196). -/
def execGainadd (x : Ext) (s : State) : Result :=
  .next (s.issue (specChecks [x.oa, x.ob, x.oc] []) (scalarsOf [x.oa, x.ob, x.oc]) .drain fun s => do
    s.twiceCheck (linksOf (scalarsOf [x.oa, x.ob, x.oc]))
    let (a, s) ← s.readS (opdOf x.oa)
    let (k, s) ← s.readS (opdOf x.ob)
    let (d, s) ← s.readS (opdOf x.oc)
    let c ← if x.imm.getLsbD 0 then s.targetOwner a else s.targetIndex a
    let s ← if s.merges c (k.toNat % 2 ^ 16) || (s.kernel.bind (·.dflt)).isNone || s.hasRoomAt c then s.relFlag x else blockOn .other
    .ok ((s.fly (.gain s.slot.par.kid s.coreId s.slot.par.ident c (k.setWidth 16) (d.setWidth 32))).advance 12))

/-! ### resadd (R232) -/

/-- Residual steps in order, with their events. -/
def residualSteps (p : BitVec 32 × BitVec 32) : List Nat → (BitVec 32 × BitVec 32) × List Ev
  | [] => (p, [])
  | d :: ds =>
    let (p, e) := residualStep p d
    let (p, es) := residualSteps p ds
    (p, e :: es)

/-- Adding values into the kernel's residual pair on the core, with the events (R199). -/
def State.addResidual (s : State) (ds : List Nat) : State × List Ev :=
  let r := s.core.of s.slot.par.kid
  let (p, evs) := residualSteps (r.s, r.c) ds
  (State.countEvents { s with core := s.core.putOf { r with s := p.1, c := p.2 } } evs, evs)

/-- A resadd completes; an enabled event's trap lies after it (R95, R101, R37). -/
def State.residualDone (s : State) (src : TrapSource) (ds : List Nat) : State :=
  let (t, evs) := s.addResidual ds
  let t := t.advance 12
  let raised := raisedEvents t.slot.status evs
  if raised = 0 then t else t.takeTrap { cause := 0x0400, event := raised } src t.slot.here (some t.slot.here)

/-- resadd (R232): scalar, or the active lanes of a vector. -/
def execResadd (x : Ext) (s : State) : Result :=
  let vec := x.oa.isVector
  .next (s.issue { operand := !(if vec then vsrcSpec x.oa else srcSpec x.oa && !x.me), queue := specQueue x.oa }
      (scalarsOf [x.oa] ++ (if x.me then [.w x.mask] else [])) .drain fun s => do
    let src := s.trapSource
    if vec then
      let mask := wGet s.slot.w x.mask
      let (v, s) ← s.readV x.oa 32
      let ds := (List.range 32).filterMap fun i => if !x.me || mask.getLsbD i then some (laneAt 32 v i) else none
      .ok (s.residualDone src ds)
    else
      let (a, s) ← s.readS (opdOf x.oa)
      .ok (s.residualDone src [a.toNat % 2 ^ 32]))

/-! ### spawn (R233) -/

/-- spawn (R233): the offer goes out, and the instruction completes with its answer. The spawned activation has the
spawner's issue level (DESIGN CHOICE, log 41: R222 gives one only to an activation popped from a message). -/
def execSpawn (x : Ext) (s : State) : Result :=
  .next (s.issue (specChecks [x.oa, x.ob, x.oc] [x.od]) (scalarsOf [x.od, x.oa, x.ob, x.oc]) .drain fun s => do
    let s0 := s
    s.twiceCheck (linksOf (scalarsOf [x.oa, x.ob, x.oc]))
    let (a, s) ← s.readS (opdOf x.oa)
    let (pc, s) ← s.readS (opdOf x.ob)
    let (p, s) ← s.readS (opdOf x.oc)
    match s.slot.par.request with
    | .spawn none => blockOn .other
    | .spawn (some took) => do
      let s ← s.writeS (opdOf x.od) (bit took)
      .ok (s.advance 12)
    | _ => do
      let c ← s.targetIndex a
      require (pc.toNat % 4 == 0) 0x0200 pc
      require (p.toNat % 8 == 0) 0x0200 p
      let (ws, s) ← s.loadWords p 4
      let s ← s.relFlag x
      let t := (s.unread s0).fly (.offer s.slot.par.kid s.coreId s.slot.par.ident c pc ws s.slot.par.header s.slot.par.level)
      .error (.hold fun _ => t.setPar { t.slot.par with request := .spawn none }))

/-! ### Key maps (R234, R235) -/

/-- The operation of a key map's code. -/
def binOp (c : Nat) : Option BinOp :=
  match c with
  | 0 => some .add
  | 1 => some .fadd
  | 2 => some .min
  | 3 => some .max
  | 4 => some .or
  | _ => none

/-- The key map that a descriptor's words make for a kernel, if it is valid (R234). -/
def keyMapOf (k : Kernel) (ws : List Word) : Option KeyMap :=
  let w (i : Nat) : Word := ws.getD i 0
  let rows := field (w 0) 48 16
  let cols := field (w 0) 32 16
  let row0 := field (w 0) 16 16
  let col0 := field (w 0) 0 16
  let boff := field (w 1) 0 19
  let bins := field (w 2) 0 32
  match binOp (field (w 2) 32 3) with
  | none => none
  | some op =>
    if field (w 1) 19 45 == 0 && field (w 2) 35 29 == 0 && w 3 == 0 && rows != 0 && cols != 0 && bins != 0 && boff % 8 == 0
        && row0 + rows ≤ k.rows && col0 + cols ≤ k.cols && boff + 8 * bins ≤ Config.scratchpadBytes then
      some { rows := rows, cols := cols, row0 := row0, col0 := col0, boff := boff, op := op, bins := bins }
    else none

/-- kmap (R234). -/
def execKmap (x : Ext) (s : State) : Result :=
  .next (s.issue (specChecks [x.oa] []) (scalarsOf [x.oa]) .drain fun s => do
    let (a, s) ← s.readS (opdOf x.oa)
    require (a.toNat % 32 == 0) 0x0200 a
    let (ws, s) ← s.loadWords a 4
    match s.kernel with
    | none => trapAt 0x0801 a
    | some k =>
      match keyMapOf k ws with
      | none => trapAt 0x0801 a
      | some m => .ok ((s.setKernel { k with kmaps := assocSet (x.imm.toNat % 8) m k.kmaps }).advance 12))

/-- The core and the bin of a key (R207, R235). -/
def KeyMap.route (m : KeyMap) (k : Kernel) (key : Nat) : Option (Nat × Nat) :=
  let n := m.cols * m.rows
  let i := key % n
  (k.coreOf ((m.row0 + i / m.cols) * k.cols + m.col0 + i % m.cols)).map fun c => (c, key / n % m.bins)

/-- sendk (R235). -/
def execSendk (x : Ext) (s : State) : Result :=
  let attached := x.imm.getLsbD 4
  let srcs := [x.oa, x.ob] ++ (if attached then [x.oc] else [])
  .next (s.issue (specChecks srcs []) (scalarsOf srcs) .drain fun s => do
    s.twiceCheck (linksOf (scalarsOf srcs))
    let (key, s) ← s.readS (opdOf x.oa)
    let (v, s) ← s.readS (opdOf x.ob)
    let (c, s) ← if attached then s.readS (opdOf x.oc) else .ok (0, s)
    match s.kernel with
    | none => trapOf 0x0801
    | some k =>
      match (k.kmaps.find? fun m => m.1 == x.imm.toNat % 8).map (·.2) with
      | none => trapOf 0x0801
      | some m =>
        match m.route k key.toNat with
        | none => trapOf 0x0801
        | some (core, bin) =>
          if attached then do
            let bar ← barrierId c
            match (k.barrier bar).plus 16 with
            | none => trapOf 0x0804
            | some b => do
              let s ← (s.setKernel (k.setBarrier bar b)).relFlag x
              .ok ((s.fly (.keyUpdate k.kid s.coreId core bin m.boff m.op v (some bar))).advance 12)
          else do
            let s ← s.relFlag x
            .ok ((s.fly (.keyUpdate k.kid s.coreId core bin m.boff m.op v none)).advance 12))

/-- defh (R236). -/
def execDefh (x : Ext) (s : State) : Result :=
  let h := x.imm.toNat % 128
  .next (s.issue {} [] .drain fun s =>
    .ok ((s.mapKernel s.slot.par.kid fun k => { k with dflt := if h = 0x40 then none else some h }).advance 12))

/-! ### Gangs (R208, R244, R245) -/

/-- The height and the width of a gang's shape. -/
def gangShape (s : Nat) : Nat × Nat := match s with | 0 => (1, 2) | 1 => (2, 2) | _ => (2, 4)

/-- The aligned block of a shape that contains a core, the north-west corner first. -/
def gangBlock (core shape : Nat) : List Nat :=
  let (h, w) := gangShape shape
  let r := rowOf core / h * h
  let c := colOf core / w * w
  (List.range (h * w)).map fun i => dieOf core * 576 + (r + i / w) * 24 + c + i % w

/-- Whether a slot waits in `gang` for a kernel, with a shape that satisfies a test. -/
def Slot.wishes (x : Slot) (kid : Nat) (p : Nat → Bool) : Bool :=
  x.st == .waiting && x.par.kid == kid && (match x.par.gangWish with | some w => p w | none => false)

/-- Whether a context of the kernel, bound or parked, waits in a block that overlaps this one, with another shape (R244). -/
def State.gangClash (s : State) (shape : Nat) : Bool :=
  let mine := gangBlock s.coreId shape
  (List.range 16).any fun p =>
    let c := clusterMate s.coreId p
    let clash (x : Slot) : Bool := x.wishes s.slot.par.kid fun w => w != shape && (gangBlock c w).any mine.contains
    ((List.range 16).any fun k => !(c == s.coreId && k == s.slotId) && clash (s.slotAt c k)) || (s.coreAt c).parked.any clash

/-- The member that a core of the block gives. The spec does not say which context, where several of one core wait with the
shape: on this core the one that executes, elsewhere the first slot that waits (DESIGN CHOICE, log 41). -/
def State.gangMember (s : State) (shape core : Nat) : Option (Nat × Nat) :=
  if core = s.coreId then some (core, s.slotId)
  else ((List.range 16).find? fun k => (s.slotAt core k).wishes s.slot.par.kid (· == shape)).map fun k => (core, k)

/-- A member's `gang` completes: it goes on after its own instruction, of 12 bytes. -/
def Slot.ganged (x : Slot) (cycle : Nat) : Slot :=
  { (x.advance 12) with st := .active, par := { x.par with gangWish := none, issues := false, wd := cycle } }

/-- A gang forms: every member goes on after its own `gang`, and the gang's stream is the leader's from its next instruction on
(R244). -/
def State.formGang (s : State) (members : List (Nat × Nat)) : State :=
  let s := members.foldl (fun s m => s.setSlot m.1 m.2 ((s.slotAt m.1 m.2).ganged s.cycle)) s
  let next := match members.head? with | some m => (s.slotAt m.1 m.2).pc | none => 0
  { s with gangs := s.gangs ++ [{ members := members, pending := [], words := [], base := next, next := next, dissolve := false }] }

/-- Whether the focused context waits in `gang` with a shape already: its checks are behind it (R244). -/
def State.gangWaits (s : State) (shape : Nat) : Bool := s.slot.wishes s.slot.par.kid (· == shape)

/-- gang (R244). -/
def execGang (x : Ext) (s : State) : Result :=
  let shape := x.imm.toNat % 4
  .next (s.issue {} [] .drain fun s =>
    let block := gangBlock s.coreId shape
    let inBand := match s.band, s.kernel with | some b, some k => block.all (bandHolds b k.cols) | _, _ => false
    if !s.gangWaits shape && (!inBand || (s.gangOf s.coreId s.slotId).isSome || s.gangClash shape) then trapOf 0x0805
    else
      let members := block.filterMap (s.gangMember shape)
      if members.length = block.length then .ok (s.formGang members)
      else .error (.wait (State.setPar s.waits { s.waits.slot.par with gangWish := some shape })))

/-- ungang (R245). -/
def execUngang (_x : Ext) (s : State) : Result :=
  .next (s.issue {} [] .drain fun s => .ok ((s.dissolveGang s.coreId s.slotId).advance 12))

/-! ### Identity and the tree (R240, R242, R243) -/

/-- What `myid` reads. -/
def State.identity (s : State) (sel : Nat) : Word :=
  let v := s.slot.vcore.toNat
  let cols := (s.kernel.map Kernel.cols).getD 1
  let rows := (s.kernel.map Kernel.rows).getD 1
  match sel with
  | 0 => BitVec.ofNat 64 v
  | 1 => BitVec.ofNat 64 (v / cols * 2 ^ 16 + v % cols)
  | 2 => BitVec.ofNat 64 (rows * 2 ^ 16 + cols)
  | 3 => match s.band with
    | some b => BitVec.ofNat 64 (b.height * 2 ^ 16 + b.row0)
    | none => 0
  | 4 => s.slot.par.header
  | 5 => BitVec.ofNat 64 (s.slotId * 2 ^ 16 + s.slot.tag.toNat)
  | _ => BitVec.ofNat 64 (rows * cols)

/-- myid (R243). -/
def execMyid (x : Ext) (s : State) : Result :=
  .next (s.issue (specChecks [] [x.od]) (scalarsOf [x.od]) .free fun s => do
    let s ← s.writeS (opdOf x.od) (s.identity (x.imm.toNat % 8))
    .ok (s.advance 12))

/-- The operation of `trc.add`'s code. -/
def treeOp (c : Nat) : TreeOp := match c with | 0 => .add | 1 => .fadd | 2 => .min | _ => .max

/-- A contribution with one more value (R240): fadd's by a residual step. -/
def TreeOp.contribute (op : TreeOp) (old v : Word) : Word :=
  match op with
  | .fadd =>
    let p := (residualStep (old.setWidth 32, (old >>> 32).setWidth 32) (v.toNat % 2 ^ 32)).1
    p.2 ++ p.1
  | _ => op.combine old v

/-- trc.add (R240). -/
def execTrcAdd (x : Ext) (s : State) : Result :=
  .next (s.issue (specChecks [x.oa, x.ob] []) (scalarsOf [x.oa, x.ob]) .drain fun s => do
    s.twiceCheck (linksOf (scalarsOf [x.oa, x.ob]))
    let (a, s) ← s.readS (opdOf x.oa)
    let (v, s) ← s.readS (opdOf x.ob)
    let bar ← barrierId a
    let op := treeOp (x.imm.toNat % 4)
    let held := s.slot.contribution bar
    require (match held with | some (o, _) => o == op | none => true) 0x0803
    let c : Contribution := { barrier := bar, op := op, value := op.contribute ((held.map (·.2)).getD op.start) v }
    .ok ((s.setPar { s.slot.par with contribs := c :: s.slot.par.contribs.filter fun d => d.barrier != bar }).advance 12))

/-- trc.get (R242). -/
def execTrcGet (x : Ext) (s : State) : Result :=
  let sel := x.imm.toNat % 4
  let srcs := if sel = 0 then [x.oa] else []
  .next (s.issue (specChecks srcs [x.od]) (scalarsOf (x.od :: srcs)) .free fun s => do
    let (a, s) ← if sel = 0 then s.readS (opdOf x.oa) else .ok (0, s)
    let bar ← barrierId a
    let r : Word := match s.kernel with
      | none => 0
      | some k =>
        match sel with
        | 0 => (k.barrier bar).last
        | 1 => k.lo ++ k.hi
        | _ => BitVec.ofNat 64 k.rounds
    let s ← s.writeS (opdOf x.od) r
    .ok (s.advance 12))

/-! ### Link claims (R246) -/

/-- lclaim (R246); a destination that is a link needs the claim before it (R212). -/
def execLclaim (d : SOpd) (s : State) : Result :=
  .next (s.issue (scalarChecks [] [d]) [d] .drain fun s => do
    s.linksOk (linksOf [d])
    let mine := s.core.claim.isNone || s.core.claim == some s.slotId
    let s := if mine then { s with core := { s.core with claim := some s.slotId } } else s
    let s ← s.writeS d (bit mine)
    .ok (s.advance 4))

/-- lfree (R246). -/
def execLfree (s : State) : Result :=
  .next (s.issue {} [] .drain fun s => .ok (State.advance { s with core := s.core.freeClaim s.slotId } 4))

/-- The link state (R246). -/
def State.linkState (s : State) : Word :=
  let dirs : List Dir := [.n, .e, .s, .w]
  let put (i : Nat) (b : Bool) : Nat := if b then 2 ^ i else 0
  let full (d : Dir) : Bool := match s.linkNeighbour d with
    | some c => ((s.coreAt c).links[dirIndex (opposite d)]).isSome
    | none => false
  BitVec.ofNat 64 ((dirs.map fun d =>
    let i := (dirIndex d).val
    put i (s.core.links[dirIndex d]).isSome + put (4 + i) (full d) + put (8 + i) (s.linkNeighbour d).isSome).sum
    + put 12 (s.core.claim == some s.slotId))

/-- lpoll (R246). -/
def execLpoll (d : SOpd) (s : State) : Result :=
  .next (s.issue (scalarChecks [] [d]) [d] .free fun s => do
    let s ← s.writeS d s.linkState
    .ok (s.advance 4))

end Sys2Proof.Machine
end

