-- ==== Sys2Proof/Machine/Host.lean ====
section
/-! DEFINITION. The HOST instructions and what answers them: the time base, alarms, system calls and interrupts
(R402-R410). -/

namespace Sys2Proof.Machine

/-! ### The time base (R402, R404) -/

/-- rdtime (R404). -/
def execRdtime (d : SOpd) (s : State) : Result :=
  .next (s.issue (scalarChecks [] [d]) [d] .free fun s => do
    let s ← s.writeS d (BitVec.ofNat 64 s.timeBase)
    .ok (s.advance 4))

/-! ### Alarms (R405, R406) -/

/-- Whether the alarm of a context of a core may fire: its deadline is here, and a message form has room. -/
def State.canFire (s : State) (core : Nat) (x : Slot) : Bool :=
  match x.par.alarm with
  | none => false
  | some a => a.deadline.toNat ≤ s.timeBase && (a.header == 0 || s.hasRoomAt core)

/-- The message of an alarm in message form. -/
def State.flyAlarm (s : State) (core : Nat) (x : Slot) : State :=
  match x.par.alarm with
  | none => s
  | some a =>
    if a.header = 0 then s
    else s.fly (.message x.par.kid core x.par.ident core {
      header := setField a.header 16 10 x.tag.toNat
      p := Vector.ofFn fun i => if i.val = 0 then BitVec.ofNat 64 s.timeBase else if i.val = 1 then a.deadline else 0 })

/-- An alarm fires. -/
def execAlarmFires (core : Nat) (who : CtxRef) (s : State) : Result :=
  .next (match who with
    | .slot k =>
      let x := s.slotAt core k
      if s.canFire core x then (s.flyAlarm core x).setSlot core k (x.fired s.cycle) else s
    | .parked wp =>
      let k := s.coreAt core
      match k.parked.find? fun x => x.wp.toNat == wp with
      | none => s
      | some x =>
        if s.canFire core x then
          (s.flyAlarm core x).setCore core { k with parked := k.parked.map fun y => if y.par.ident = x.par.ident then y.fired s.cycle else y }
        else s)

/-- The focused slot's alarm replaced, and fired at once when its deadline has passed. -/
def State.setAlarm (s : State) (d h : Word) : State :=
  let t := s.setPar { s.slot.par with alarm := if d = 0 then none else some { deadline := d, header := h } }
  if t.canFire t.coreId t.slot then { t.flyAlarm t.coreId t.slot with slot := (if h = 0 then t.slot.latched else t.slot).silent }
  else t

/-- The address of a handler of the focused context's kernel (R191). -/
def State.handler (s : State) (hid : Nat) : Word := match s.kernel with | some k => k.handlers.getD hid 0 | none => 0

/-- alarm (R405). -/
def execAlarm (a b : SOpd) (s : State) : Result :=
  .next (s.issue (scalarChecks [a, b] []) [a, b] .drain fun s => do
    s.twiceCheck (linksOf [a, b])
    let (d, s) ← s.readS a
    let (h, s) ← s.readS b
    require (h == 0 || s.handler (hdrHid h) != 0) 0x0D00
    .ok ((s.setAlarm d h).advance 4))

/-! ### Interrupts (R409) -/

/-- An identity is raised at a hart of a package; one that is pending stays one. -/
def State.raise (s : State) (p hart ident : Nat) : State :=
  let c := s.ctlAt p
  if c.pendingIrq.contains (hart, ident) then s else s.setCtl p { c with pendingIrq := c.pendingIrq ++ [(hart, ident)] }

/-- Whether IRQWIN grants an identity. -/
def grants (win : Word) (ident : Word) : Bool :=
  field win 0 11 ≤ ident.toNat && ident.toNat < field win 0 11 + field win 16 11

/-- sig.irq (R409), over a route to the control die (R395). -/
def execSigIrq (a b : SOpd) (s : State) : Result :=
  .next (s.issue (scalarChecks [a, b] []) [a, b] .drain fun s => do
    s.twiceCheck (linksOf [a, b])
    let (i, s) ← s.readS a
    let (h, s) ← s.readS b
    require (grants s.core.irqwin i && h.toNat < Config.harts) 0x0D00
    s.toControl
    let s ← s.releaseHalf .sys
    .ok ((s.raise (pkgOf s.coreId) h.toNat i.toNat).advance 4))

/-- An endpoint's MSI raises an identity (R415). -/
def execEndpointMsi (pkg hart ident : Nat) (s : State) : Result :=
  .next (if hart < Config.harts && 1 ≤ ident && ident < 2048 then s.raise pkg hart ident else s)

/-! ### System calls (R407, R408) -/

/-- SYSQ.EN. -/
def Ctl.sysqOn (c : Ctl) : Bool := c.sysq.getLsbD 0
/-- The slots of the queue: 2^LOG2. -/
def Ctl.sysqSlots (c : Ctl) : Nat := let l := field c.sysq 1 5; 2 ^ (if 4 ≤ l && l ≤ 16 then l else 4)
/-- Whether the queue takes an entry now. -/
def Ctl.sysqReady (c : Ctl) : Bool := c.sysqOn && (c.sysqTail - c.sysqHead).toNat != c.sysqSlots

/-- The identity word of an entry (R408). -/
def State.sysIdentity (s : State) : Word :=
  BitVec.ofNat 64 ((s.core.aspace.extractLsb' 52 12).toNat * 2 ^ 52 + s.slot.tag.toNat * 2 ^ 42 + s.slot.vcore.toNat * 2 ^ 26
    + s.slotId * 2 ^ 22 + clusterPos s.coreId * 2 ^ 18 + clusterOf s.coreId * 2 ^ 12 + dieOf s.coreId % 8 * 2 ^ 9)

/-- A token that no unanswered request of the package has: a free value, or the least number when it is taken
(log 16). -/
def State.freshToken (s : State) (c : Ctl) : Word :=
  let t := Config.freeToken s.free
  if !c.tokens.contains t then t
  else BitVec.ofNat 64 (((List.range (c.tokens.length + 1)).find? fun n => !c.tokens.contains (BitVec.ofNat 64 n)).getD 0)

/-- The address of the queue's next entry (R407). -/
def Ctl.sysKey (c : Ctl) : Nat := field c.sysq 12 40 * 4096 + c.sysqTail.toNat % c.sysqSlots * 128

/-- Where the queue's next entry now lies (R387, R407). -/
def State.sysSlot (s : State) (c : Ctl) : Nat := s.forwarded c.sysKey

/-- An entry is written, all its 128 bytes, with protection (R266, R367): the others first, then, after them in publication, its SEQ
(R408). -/
def State.writeSysEntry (s : State) (c : Ctl) (req : List Word) (addr token : Word) : Act State := do
  let key := s.sysSlot c
  let s ← s.checkWrite s.self key 128
  let s := s.storeWhole s.self key (bytesOfWords (req ++ [s.sysIdentity, token, BitVec.ofNat 64 s.timeBase, addr, 0, 0, 0]))
  .ok (((s.release s.self .sys).storeRec s.self (key + 0x78) ((bytesOfWords [c.sysqTail]).map some) (some .sys) none).inject (key + 0x78) 8)

/-- The interrupt that SYSQIRQ asks for. -/
def State.sysSignal (s : State) (p : Nat) : State :=
  let q := (s.ctlAt p).sysqIrq
  if q.getLsbD 31 then s.raise p (field q 16 3) (field q 0 11) else s

/-- The focused context's request is posted, and it waits for the reply. -/
def State.postSys (s : State) (req : List Word) (addr : Word) : Act State := do
  let p := pkgOf s.coreId
  let token := s.freshToken (s.ctlAt p)
  let s ← s.writeSysEntry (s.ctlAt p) req addr token
  let c := s.ctlAt p
  let s := (s.setCtl p { c with sysqTail := c.sysqTail + 1, tokens := token :: c.tokens }).sysSignal p
  .ok ((s.drew).setPar { s.slot.par with request := .sys token none })

/-- The routes to the queue's entry and, where SYSQIRQ asks for a signal, to the control die (R395). -/
def State.sysRoutes (s : State) (key : Nat) : Act Unit := do
  s.passage s.self (pkgOf s.coreId) (dieOf s.coreId % 8) key
  if (s.ctlAt (pkgOf s.coreId)).sysqIrq.getLsbD 31 then s.toControl

/-- The wait for a free slot of the queue, the home of its page (R385) and the routes (R395), or the posting. -/
def State.sysProgress (s : State) (req : List Word) (addr : Word) : Stop :=
  let c := s.ctlAt (pkgOf s.coreId)
  let later := State.setPar s.waits { s.waits.slot.par with request := .sysFor req addr }
  if !c.sysqReady then .wait later
  else if s.homeQueues (s.sysSlot c) (s.asRequest false) then .wait (later.queueRequest (s.sysSlot c) (s.asRequest false))
  else
    match (do s.sysRoutes (s.sysSlot c); s.waits.postSys req addr) with
    | .error (.trap t) => .trap t
    | .error _ => .wait later
    | .ok t => .wait t

/-- sys (R407). -/
def execSys (d a : SOpd) (s : State) : Result :=
  .next (s.issue (scalarChecks [a] [d]) [d, a] .drain fun s => do
    match s.slot.par.request with
    | .sys _ (some v) => do
      let (_, t) ← s.readS a
      let t ← (t.acquireHalf .sys).writeS d v
      .ok (t.yieldPoint.advance 4)
    | .sys _ none => waitHere s
    | .sysFor req addr => .error (s.sysProgress req addr)
    | _ => do
      let (x, t) ← s.readS a
      require (x.toNat % 64 == 0) 0x0200 x
      require (s.ctlAt (pkgOf s.coreId)).sysqOn 0x0D00
      let (ws, t) ← t.loadWords x 8
      let t ← t.releaseHalf .sys
      .error ((t.unread s).sysProgress ws x))

/-- Every context of a core. -/
def Core.mapSlots (k : Core) (f : Slot → Slot) : Core :=
  { k with slots := k.slots.map fun p => (p.1, f p.2), parked := k.parked.map f }

/-- Every context of the cores that satisfy a test, in a slot or parked. -/
def State.mapSlots (s : State) (p : Nat → Bool) (f : Slot → Slot) : State :=
  let here := p s.coreId
  { s with
    slot := if here then f s.slot else s.slot
    core := if here then s.core.mapSlots f else s.core
    cores := s.cores.map fun c => if p c.1 then (c.1, c.2.mapSlots f) else c }

/-- A context whose request has this token has its reply. -/
def Slot.replied (token value : Word) (x : Slot) : Slot :=
  match x.par.request with
  | .sys t none => if t = token then { x with par := { x.par with request := .sys t (some value) } } else x
  | _ => x

/-- Whether a context waits for the reply to a token. -/
def Slot.asks (token : Word) (x : Slot) : Bool := match x.par.request with | .sys t none => t == token | _ => false

/-- The core of a package on which a context waits for the reply to a token, and the context's kernel. -/
def State.asker (s : State) (pkg : Nat) (token : Word) : Option (Nat × Nat) :=
  ((s.coreId, { s.core with slots := (s.slotId, s.slot) :: s.core.slots }) :: s.cores).findSome? fun c =>
    if pkgOf c.1 != pkg then none
    else ((c.2.slots.map (·.2) ++ c.2.parked).find? (Sys2Proof.Machine.Slot.asks token)).map fun x => (c.1, x.par.kid)

/-- A reply travels from the control die to the core of the context that waits for it (R395): how it does, and where none is waited for,
freely. -/
def State.replyUse (s : State) (pkg : Nat) (token : Word) : LinkUse :=
  match s.asker pkg token with
  | some (c, _) => s.innerUse pkg 8 (dieOf c % 8)
  | none => .passes

/-- A write to SYSRTOK of a hart: the value of its SYSRVAL reaches the context that waits with the token (R408). The write waits while a
link on the reply's way retrains; a reply for which no route is left is lost, a machine check of the context's kernel (R395, log 49). -/
def execSysrtokWrite (pkg hart : Nat) (token : Word) (s : State) : Result :=
  let c := s.ctlAt pkg
  .next (if pkg < Config.packages && hart < Config.harts && c.tokens.contains token then
      let t := s.setCtl pkg { c with tokens := c.tokens.erase token }
      match s.replyUse pkg token with
      | .passes => t.mapSlots (fun core => pkgOf core == pkg) (Sys2Proof.Machine.Slot.replied token ((c.sysRval.toList).getD hart 0))
      | .waits => s
      | .none_ => t.reportCheck (((s.asker pkg token).map (·.2)).getD 0) (((s.asker pkg token).map (·.1)).getD 0)
          { cause := 0x0E06, array := some (s.deadPort pkg 8) }
    else s)

/-- A write to SYSQ (R407): EN alone while EN is 1; a rise of EN sets SYSQTAIL. -/
def execSysqWrite (pkg : Nat) (value : Word) (s : State) : Result :=
  let c := s.ctlAt pkg
  .next (s.setCtl pkg (
    if c.sysqOn then { c with sysq := setBit c.sysq 0 (value.getLsbD 0) }
    else { c with
      sysq := value &&& 0x000FFFFFFFFFF03F
      sysqTail := if value.getLsbD 0 then c.sysqHead else c.sysqTail }))

/-- A write to SYSQHEAD (R407). -/
def execSysqheadWrite (pkg : Nat) (value : Word) (s : State) : Result :=
  .next (s.setCtl pkg { s.ctlAt pkg with sysqHead := value })

end Sys2Proof.Machine
end

