-- ==== Sys2Proof/Machine/Engines.lean ====
section
/-! DEFINITION. What the engines' commands share: their turns, their faults, their tiles, the barriers that their bytes
count for, and the waits for them (R321-R326, R344). -/

namespace Sys2Proof.Machine

/-! ### Faults (R325, R367) -/

/-- Whether the activation that issued a command still runs: its context, in a slot of the core or parked, has not
ended it. -/
def Origin.runsIn (o : Origin) (x : Slot) : Bool :=
  x.par.ident == o.ident && x.par.act == o.act && (x.st == .active || x.st == .waiting || x.st == .stopped)

/-- The contexts of a core, in slots and parked. -/
def State.contextsOf (s : State) (core : Nat) : List Slot :=
  ((List.range 16).map (s.slotAt core)).filter (fun x => x.st != .unbound) ++ (s.coreAt core).parked

/-- A fault as it is kept for the next wait (R325). DESIGN CHOICE (log 54): one fault of each kind of engine is kept, the first; a command
of the context that has begun by then runs on to its end, and a fault of its own is dropped. -/
def Slot.faulted (f : EngineFault) (x : Slot) : Slot :=
  { x with par := { x.par with faults := if x.par.faults.any (·.matrix == f.matrix) then x.par.faults else x.par.faults ++ [f] } }

/-- Whether a fault is recorded for a command's context in its engine, or the command is to be discarded. -/
def State.discards (s : State) (core : Nat) (o : Origin) (matrix : Bool) : Bool :=
  o.dead || (s.contextsOf core).any fun x => x.par.ident == o.ident && x.par.faults.any (·.matrix == matrix)

/-- Every queued command of a core that satisfies a test is to be discarded. -/
def Core.killed (k : Core) (p : Origin → Bool) : Core :=
  { k with
    mx := { k.mx with queue := k.mx.queue.map fun q => if p q.from_ then { q with from_ := { q.from_ with dead := true } } else q }
    xq := k.xq.map fun q => if p q.from_ then { q with from_ := { q.from_ with dead := true } } else q }

/-- A command's fault: recorded for its context while the issuing activation runs, and otherwise reported, the commands
of that activation still queued to be discarded. -/
def State.recordFault (s : State) (core : Nat) (o : Origin) (matrix : Bool) (cause : BitVec 16) (addr : Word) : State :=
  if (s.contextsOf core).any o.runsIn then
    s.mapContext core o.ident
      (Sys2Proof.Machine.Slot.faulted { matrix := matrix, cause := cause, addr := addr, ipc := o.ipc, words := o.words })
  else
    let k := s.coreAt core
    (s.setCore core (k.killed fun p => p.ident == o.ident && p.act == o.act)).reportAct o.kid core cause addr

/-- How a command that has stopped for good ends: a fault or a machine check; and what it waits for otherwise. -/
def State.ends (s : State) (core : Nat) (o : Origin) (matrix : Bool) : CmdStop → State
  | .fault cause addr => s.recordFault core o matrix cause addr
  | .check t => s.reportCheck o.kid core t
  | _ => s

/-! ### Barriers (R279, R344) -/

/-- Bytes leave a barrier's count, and the tree evaluates it. -/
def State.bytesLeave (s : State) (kid bar n : Nat) : State :=
  match s.kernelAt kid with
  | some k =>
    let b := k.barrier bar
    (s.setKernel (k.setBarrier bar { b with pending := b.pending - n })).treeActs kid bar
  | none => s

/-- What a write that is attached to a barrier carries: its kernel, the barrier, and the generation that is open. -/
def State.attach (s : State) (kid : Nat) (bar : Option Nat) : Option (Nat × Nat × Nat × Bool) :=
  match bar, s.kernelAt kid with
  | some b, some k => some (kid, b, (k.barrier b).done.toNat, false)
  | _, _ => none

/-! ### Tiles (R258, R324) -/

/-- Whether a command issued earlier than a number has not completed and names a tile; with `ident`, only those of
that context count. -/
def State.tileBefore (s : State) (home : Nat × Nat) (id : Nat) (ident : Option Nat) : Bool :=
  let counts (o : Origin) : Bool := o.id < id && (match ident with | some i => o.ident == i | none => true)
  (List.range 16).any fun p =>
    let c := clusterMate home.1 p
    let k := s.coreAt c
    k.mx.queue.any (fun q => counts q.from_ && (s.mxTiles c q.op).contains home)
      || k.xq.any (fun q => counts q.from_ && q.tiles.contains home)

/-- The key of a byte of a tile, given its home. -/
def State.tileKey (s : State) (home : Nat × Nat) (off : Nat) : Nat := spKey home.1 (tteOff (s.tteAt home.1 home.2) + off)

/-- LEN of a tile, given its home. -/
def State.tileLen (s : State) (home : Nat × Nat) : Nat := tteLen (s.tteAt home.1 home.2)

/-- A command reads n bytes of a tile: the present bytes of the home banks. -/
def State.tileGet (s : State) (a : Agent) (home : Nat × Nat) (off n : Nat) : Cmd (List Byte × State) := do
  let key := s.tileKey home off
  if s.inImage home.1 (keyOffset key) n then .error (.fault 0x0A11 0)
  else
    let s ← asCmd (s.checkRead a key n)
    .ok (s.loadHome a key n)

/-- A command writes bytes of a tile. -/
def State.tilePut (s : State) (a : Agent) (home : Nat × Nat) (off : Nat) (data : List Byte)
    (bar : Option (Nat × Nat × Nat × Bool)) : Cmd State := do
  let key := s.tileKey home off
  if s.inImage home.1 (keyOffset key) data.length then .error (.fault 0x0A11 0)
  else
    let s ← asCmd (s.checkWrite a key data.length)
    .ok ((s.storeRec a key (data.map some) none bar).inject key data.length)

/-- Element p of a tile image packed by R75 from byte 0. -/
def State.tileCode (s : State) (a : Agent) (home : Nat × Nat) (f : Fmt) (p : Nat) : Cmd (Nat × State) := do
  let bit := p * elemStorage f
  let (bs, s) ← s.tileGet a home (bit / 8) (elemBytes f)
  .ok (codeIn f bs (bit % 8), s)

/-! ### Operations on handles (R305-R307) -/

/-- Whether an operation is a command's use of its handles. -/
def TOp.ofCommand (o : TOp) (id : Nat) : Bool := match o.work with | .engine i _ => i == id | _ => false

/-- The place in the order of acceptance of a command's operation on handles. -/
def State.topOf (s : State) (id : Nat) : Option Nat := s.tops.findIdx? (·.ofCommand id)

/-- Whether a command's operation on handles, if it has one, may be performed. -/
def State.topReady (s : State) (id : Nat) : Bool :=
  match s.topOf id with
  | none => true
  | some i => match s.tops[i]? with
    | some o => o.ready (s.tops.take i)
    | none => true

/-- A command's operation on handles is performed. -/
def State.topDone (s : State) (id : Nat) : State :=
  match s.tops.find? (·.ofCommand id) with
  | some o => s.performed o
  | none => s

/-- A tensor by its handle, as a command names it. -/
def State.tensorAt (s : State) (h : Word) : Option Tensor := s.tensors.find? (·.handle == h)

/-! ### Waits (R325, R326) -/

/-- The upcall of a recorded fault: the record's IPC and words are the faulted command's (R325). -/
def State.faultUpcall (s : State) (f : EngineFault) : State :=
  let x := { s.completed.slot with par := { s.completed.slot.par with faults := s.slot.par.faults.filter fun g => g.matrix != f.matrix } }
  State.takeTrap { s.completed with slot := x } { cause := f.cause, addr := f.addr } { ipc := f.ipc, words := f.words, vector := false }
    s.slot.here none

/-- The fault recorded for an engine. -/
def State.faultOf (s : State) (matrix : Bool) : Option EngineFault := s.slot.par.faults.find? (·.matrix == matrix)

end Sys2Proof.Machine
end

