-- ==== Sys2Proof/Machine/Matrix.lean ====
section
/-! DEFINITION. The matrix unit: the MX instructions and the running of their commands (R327-R339). -/

namespace Sys2Proof.Machine

/-! ### Formats (R328, R329) -/

/-- The group of an operand format: 16, 8 or 4. -/
def formatGroup (f : Fmt) : Option Nat :=
  match f with
  | .bf16 | .fp16 => some 16
  | .e4m3 | .e5m2 | .e2m3 | .e3m2 | .int8 | .uint8 => some 8
  | .e2m1 | .e2m1x | .int4 | .uint4 | .int2 | .bin1 => some 4
  | _ => none

/-- Kc and Nc of a format. -/
def chunkK (f : Fmt) : Nat := if formatGroup f = some 4 then 128 else 64
def chunkN (f : Fmt) : Nat := if formatGroup f = some 16 then 48 else 96

/-- Whether a cue is one that `mxb` and `mxa` take; an E2M1X operand needs scales (R77). -/
def mxCueOk (c : BitVec 24) : Bool :=
  let b := cueBlock c
  formatGroup (cueAf c) == formatGroup (cueBf c) && (formatGroup (cueAf c)).isSome
    && (if b = 0 then cueAf c != .e2m1x && cueBf c != .e2m1x else elemScaled (cueAf c) && elemScaled (cueBf c) && chunkK (cueAf c) % b == 0)
    && cueRnd c == 0 && !c.getLsbD 15

/-- A cue that is missing or not one of those. -/
def mxCueBad (c : Option (BitVec 24)) : Bool := match c with | some c => !mxCueOk c | none => true

/-- The fields of two cues that must agree: AF, BF and BSZ. -/
def sameFormats (c d : BitVec 24) : Bool := c.extractLsb' 0 10 == d.extractLsb' 0 10

/-- The K-block of a cue: BSZ, or Kc when unscaled. -/
def kBlock (c : BitVec 24) : Nat := if cueBlock c = 0 then chunkK (cueAf c) else cueBlock c

/-- The number of K-blocks that k elements reach. -/
def blocksOf (c : BitVec 24) (k : Nat) : Nat := (k + kBlock c - 1) / kBlock c

/-- Bits of a scale entry of an operand of a format. -/
def entryBits (c : BitVec 24) (f : Fmt) : Nat := if cueXv c && f == .e2m1x then 16 else 8

/-! ### Reading operands (R330) -/

/-- Whether a tensor has an element at an index tuple (R299). -/
def Tensor.has (t : Tensor) (i : Nat × Nat × Nat × Nat) : Bool := i.1 < t.d0 && i.2.1 < t.d1 && i.2.2.1 < t.d2 && i.2.2.2 < t.d3

/-- The elements of a list of (index) tuples of a tensor, none outside its dimensions. -/
def State.tensorCodesAt (s : State) (a : Agent) (t : Tensor) : List (Nat × Nat × Nat × Nat) → List (Option Nat) × State
  | [] => ([], s)
  | i :: is =>
    let r := if t.has i then let r := s.readElem a t (t.at i.1 i.2.1 i.2.2.1 i.2.2.2); (some r.1, r.2) else (none, s)
    let rest := r.2.tensorCodesAt a t is
    (r.1 :: rest.1, rest.2)

/-- The codes at positions of a tile image. -/
def State.tileCodesAt (s : State) (a : Agent) (home : Nat × Nat) (f : Fmt) : List Nat → Cmd (List (Option Nat) × State)
  | [] => .ok ([], s)
  | p :: ps => do
    let (c, s) ← s.tileCode a home f p
    let (cs, s) ← s.tileCodesAt a home f ps
    .ok (some c :: cs, s)

/-- Entries of n bytes at entry positions of a tile image. -/
def State.tileEntriesAt (s : State) (a : Agent) (home : Nat × Nat) (n : Nat) : List Nat → Cmd (List (Option Nat) × State)
  | [] => .ok ([], s)
  | p :: ps => do
    let (bs, s) ← s.tileGet a home (p * n) n
    let (cs, s) ← s.tileEntriesAt a home n ps
    .ok (some (ofBytes bs) :: cs, s)

/-- The origin that a register gives (R330). -/
def originOf (w : Word) : Nat × Nat × Nat × Nat := (field w 0 24, field w 24 24, field w 48 8, field w 56 8)

/-- Whether some index tuples hold the whole row or column of a tensor in which an element lies. -/
def coversLine (t : Tensor) (idx : List (Nat × Nat × Nat × Nat)) (n : Nat) : Bool :=
  let i := t.tuple n
  (List.range t.d0).all (fun k => idx.contains (k, i.2)) || (List.range t.d1).all (fun k => idx.contains (i.1, k, i.2.2))

/-- A context's reads of a tensor at index tuples, over the links to its home (R395), with protection and, where they hold whole rows or columns, its checksums (R266,
R301). -/
def State.tensorScanAt (s : State) (c : Agent) (t : Tensor) (idx : List (Nat × Nat × Nat × Nat)) : Cmd State :=
  asCmd (do
    s.toTensor c t
    s.tensorScan c t ((idx.filter fun i => t.has i).map fun i => t.at i.1 i.2.1 i.2.2.1 i.2.2.2) (coversLine t idx))

/-- The codes of a tensor at index tuples as a context's loads, none outside its dimensions. -/
def State.tensorPart (s : State) (c : Agent) (t : Tensor) (idx : List (Nat × Nat × Nat × Nat)) : Cmd (List (Option Nat) × State) := do
  let s ← s.tensorScanAt c t idx
  .ok (s.tensorCodesAt c t idx)

/-- The codes of an operand: at positions of a tile, or at index tuples of a tensor, which the issuing context reads (R296). -/
def State.operandCodes (s : State) (a c : Agent) (src : MxSource) (f : Fmt) (pos : List Nat) (idx : List (Nat × Nat × Nat × Nat)) :
    Cmd (List (Option Nat) × State) :=
  match src with
  | .none => .ok ([], s)
  | .tile k e => s.tileCodesAt a (k, e) f pos
  | .tensor h => match s.tensorAt h with
    | some t => s.tensorPart c t idx
    | none => .ok (idx.map fun _ => none, s)

/-- A 16-bit entry from its scale byte and its BX. -/
def joinEntry (lo hi : Option Nat) : Option Nat := lo.map fun x => x + 256 * hi.getD 0

/-- The scale entries of an operand: at entry positions of a tile, or at (i0, i1, i2, i3) of a UINT8 tensor, i0
doubled for 16-bit entries. -/
def State.operandScales (s : State) (a c : Agent) (src : MxSource) (bits : Nat) (pos : List Nat) (idx : List (Nat × Nat × Nat × Nat)) :
    Cmd (List (Option Nat) × State) :=
  match src with
  | .none => .ok ([], s)
  | .tile k e => s.tileEntriesAt a (k, e) (bits / 8) pos
  | .tensor h => match s.tensorAt h with
    | none => .ok (idx.map fun _ => none, s)
    | some t =>
      if bits = 8 then s.tensorPart c t idx
      else do
        let lows := idx.map fun i => (2 * i.1, i.2)
        let highs := idx.map fun i => (2 * i.1 + 1, i.2)
        let s ← s.tensorScanAt c t (lows ++ highs)
        let (lo, s) := s.tensorCodesAt c t lows
        let (hi, s) := s.tensorCodesAt c t highs
        .ok ((lo.zip hi).map fun p => joinEntry p.1 p.2, s)

/-- Pairs (i, j) with i below m and, faster, j below n. -/
def pairsOf (m n : Nat) : List (Nat × Nat) := (List.range (m * n)).map fun x => (x / n, x % n)

/-- Reading a B chunk of n by k elements (R330). -/
def State.readChunk (s : State) (a by_ : Agent) (src scales : MxSource) (org : Word) (c : BitVec 24) (ts : Word) (n k : Nat) :
    Cmd (Chunk × State) := do
  let f := cueBf c
  let o := originOf org
  let es := pairsOf k n
  let (codes, s) ← s.operandCodes a by_ src f (es.map fun p => p.1 * chunkN f + p.2)
    (es.map fun p => (o.1 + p.2, o.2.1 + p.1, o.2.2.1, o.2.2.2))
  let qs := pairsOf (blocksOf c k) n
  let (sc, s) ← s.operandScales a by_ scales (entryBits c f) (qs.map fun p => p.1 * chunkN f + p.2)
    (qs.map fun p => (o.1 + p.2, o.2.1 / kBlock c + p.1, o.2.2.1, o.2.2.2))
  .ok ({ cue := c, codes := codes, scales := sc, ts := ts, n := n, k := k, bad := [] }, s)

/-- Reading the A rows: m rows of k elements (R330). -/
def State.readRows (s : State) (a by_ : Agent) (src scales : MxSource) (org : Word) (c : BitVec 24) (ts : Word) (k m : Nat) :
    Cmd (AStream × State) := do
  let f := cueAf c
  let o := originOf org
  let es := pairsOf m k
  let (codes, s) ← s.operandCodes a by_ src f (es.map fun p => p.1 * chunkK f + p.2)
    (es.map fun p => (o.1 + p.2, o.2.1 + p.1, o.2.2.1, o.2.2.2))
  let qs := pairsOf m (blocksOf c k)
  let (sc, s) ← s.operandScales a by_ scales (entryBits c f) (qs.map fun p => p.1 * (chunkK f / kBlock c) + p.2)
    (qs.map fun p => (o.1 / kBlock c + p.2, o.2.1 + p.1, o.2.2.1, o.2.2.2))
  .ok ({ cue := c, codes := codes, scales := sc, ts := ts, k := k, rows := m }, s)

/-! ### Accumulation (R332, R333) -/

/-- The value of an element under its block scale; none where no index names the element or its scale (R254, R330). A block
of E2M1X elements has its BX byte in its scale entry (R77). -/
def mxValue (c : BitVec 24) (f : Fmt) (code scale : Option Nat) : Option FVal :=
  match code, scale with
  | some x, some e => some (blockScaled (elemValue f (e / 256) x) (scaleValue (cueSf c) (e % 256)))
  | some x, none => if cueBlock c = 0 then some (elemValue f 0 x) else none
  | none, _ => none

/-- vb(k, n) and va(r, k). -/
def Chunk.val (b : Chunk) (k n : Nat) : Option FVal :=
  mxValue b.cue (cueBf b.cue) (b.codes.getD (k * b.n + n) none) (b.scales.getD (k / kBlock b.cue * b.n + n) none)
def AStream.val (a : AStream) (r k : Nat) : Option FVal :=
  mxValue a.cue (cueAf a.cue) (a.codes.getD (r * a.k + k) none) (a.scales.getD (r * blocksOf a.cue a.k + k / kBlock a.cue) none)

/-- A product of a K-block's sum: one of an element that no index names is +0 (R254). -/
def mxProduct (x y : Option FVal) : FVal :=
  match x, y with
  | some x, some y => FVal.mul x y
  | _, _ => .fin false 0 0

/-- P of a K-block: the exact sum of the products, under the tensor scales. -/
def blockSum (a : AStream) (b : Chunk) (r n q kv : Nat) : FVal :=
  let blk := kBlock b.cue
  let ks := (List.range (min ((q + 1) * blk) kv - q * blk)).map fun i => q * blk + i
  let p := ks.foldl (fun p k => FVal.add false p (mxProduct (a.val r k) (b.val k n))) (FVal.fin false 0 0)
  FVal.mul p (FVal.mul (tensorScale (cueTsf a.cue) a.ts) (tensorScale (cueTsf b.cue) b.ts))

/-- An accumulator element after a command, with its events: inexact, overflow and underflow once each, NaN when it
ends NaN. -/
def accumulated (a : AStream) (b : Chunk) (r n acc : Nat) : Out :=
  let kv := min a.k b.k
  let r := (List.range (blocksOf b.cue kv)).foldl (fun (o : Out) q =>
    let p := blockSum a b r n q kv
    if p.isZero then o
    else
      let x := fp32.round .rne false false (FVal.add false (fp32.decode o.code) p)
      ⟨x.code, o.ev ||| (x.ev &&& 0x0007)⟩) ⟨acc, 0⟩
  { r with ev := r.ev ||| (if isNan32 r.code then Ev.nanMade else 0) }

/-- Reading the accumulator's elements, in rows of n. -/
def State.accRead (s : State) (a : Agent) (home : Nat × Nat) : List Nat → Cmd (List Nat × State)
  | [] => .ok ([], s)
  | e :: es => do
    let (bs, s) ← s.tileGet a home (4 * e) 4
    let (xs, s) ← s.accRead a home es
    .ok (ofBytes bs :: xs, s)

/-- What a command that writes has done, and where it stopped, if it has: the writes made before remain (R325). -/
abbrev Run := State × Option CmdStop

/-- Writing elements of w bytes at element positions of a tile. -/
def State.accWrite (s : State) (a : Agent) (home : Nat × Nat) (w : Nat) : List (Nat × Nat) → Run
  | [] => (s, none)
  | (e, x) :: es =>
    match s.tilePut a home (w * e) (toBytes w x) none with
    | .ok s => s.accWrite a home w es
    | .error r => (s, some r)

/-- What follows a run that has not stopped. -/
def Run.andThen (r : Run) (f : State → Run) : Run := match r.2 with | none => f r.1 | some _ => r

/-- What follows reads that a command makes before it writes. -/
def State.reading (s : State) (r : Cmd (α × State)) (f : α → State → Run) : Run :=
  match r with
  | .ok (x, t) => f x t
  | .error stop => (s, some stop)

/-- The array instance of a core's CIM macros (R414). -/
def macrosOf (core : Nat) : ArrayId := { pkg := pkgOf core, kind := 4, inst := core % 4608 }

/-- The rows streamed through a chunk into an accumulator of M by N (R332). A row of the chunk with a parity error that the
command reads is a machine check. -/
def State.accumulate (s : State) (ag : Agent) (core : Nat) (home : Nat × Nat) (m n : Nat) (a : AStream) (b : Chunk) : Run :=
  match b.bad.find? (· < min a.k b.k) with
  | some row => (s, some (.check { cause := 0x0E03, array := some (macrosOf core), logAddr := some (Config.macroRow core row) }))
  | none =>
    let es := pairsOf m (min n b.n)
    s.reading (s.accRead ag home (es.map fun p => p.1 * n + p.2)) fun old s =>
      let new := (es.zip old).map fun p => accumulated a b p.1.1 p.1.2 p.2
      (s.accWrite ag home 4 ((es.zip new).map fun p => (p.1.1 * n + p.1.2, p.2.code))).andThen fun s =>
        (s.countEventsOn core (new.map (·.ev)), none)

/-! ### Running commands (R323, R327, R331, R337, R338) -/

/-- Replacing a core's matrix unit. -/
def State.mapMx (s : State) (c : Nat) (f : MxUnit → MxUnit) : State := let k := s.coreAt c; s.setCore c { k with mx := f k.mx }

/-- The head of a core's queue leaves it. -/
def State.mxPop (s : State) (core : Nat) (id : Nat) : State :=
  (s.topDone id).mapMx core fun m => MxUnit.settle { m with queue := m.queue.filter fun q => q.from_.id != id }

/-- A bit of a row of a chunk's codes, as the row's image packs them (R75), flipped. -/
def Chunk.flipBit (b : Chunk) (row bit : Nat) : Chunk :=
  let w := elemStorage (cueBf b.cue)
  let at_ := row * b.n + bit / w
  if bit / w < b.n then { b with codes := b.codes.mapIdx fun i c => if i = at_ then c.map fun x => x ^^^ 2 ^ (bit % w) else c } else b

/-- A core's macro rows are written. An armed injection there flips stored bits of a row (R370): one of them, or the parity
bit, is a parity error; two data bits pass the parity as other codes. The spec does not say how INJADR numbers a macro and
row: whether the injection matches, and which row, is a free choice (log 20). -/
def State.injectMacro (s : State) (core : Nat) (b : Chunk) : Chunk × State :=
  let g := s.logAt (macrosOf core)
  let kind := field g.injCtl 60 3
  if g.injCtl.getLsbD 63 && kind ≤ 3 then
    if Config.freeBit s.free then
      let row := Config.freeView s.free % max 1 b.k
      let two := (b.flipBit row (field g.injCtl 0 7)).flipBit row (field g.injCtl 7 7)
      (if kind = 1 then two else { b with bad := [row] }, (s.setLog (macrosOf core) { g with injCtl := setBit g.injCtl 63 false }).drew)
    else (b, s.drew)
  else (b, s)

/-- A chunk becomes current, stored as it is, and is to be forwarded south as it came when BOUT asks. -/
def MxUnit.load (m : MxUnit) (b stored : Chunk) (epoch : Nat) (forward : Bool) : MxUnit :=
  { m with chunk := some stored, chunkEpoch := epoch, southward := if forward then m.southward ++ [b] else m.southward }

/-- A chunk is loaded into a core's macros. -/
def State.loadChunk (s : State) (core : Nat) (b : Chunk) (epoch : Nat) (forward : Bool) : State :=
  let r := s.injectMacro core b
  r.2.mapMx core fun m => m.load b r.1 epoch forward

/-- What a command that needs nothing from a neighbour does; none for one that does. -/
def State.mxRun (s : State) (core : Nat) (q : MxCmd) : Option Run :=
  let ag := q.from_.agent core .matrix
  match q.op with
  | .zero e m n => some (s.accWrite ag (s.tteHome core e) 4 ((List.range (m * n)).map fun i => (i, 0)))
  | .loadB src scales org c ts n k acq fromNorth forward =>
    if fromNorth then none
    else
      let s := s.acquireFor ag acq
      some (s.reading (s.readChunk ag q.from_.by_ src scales org c ts n k) fun b s => (s.loadChunk core b q.epoch forward, none))
  | .streamA src scales org c ts k acq fromWest forward e m n =>
    if fromWest then none
    else
      let s := s.acquireFor ag acq
      some (s.reading (s.readRows ag q.from_.by_ src scales org c ts k m) fun a s =>
        match (s.coreAt core).mx.chunk with
        | none => (s, none)
        | some b => (s.accumulate ag core (s.tteHome core e) m n a b).andThen fun s =>
            (s.mapMx core fun u => if forward then { u with eastward := u.eastward ++ [a] } else u, none))
  | .convert e m n dst et rm clear rel =>
    let idx := List.range (m * n)
    some (s.reading (s.accRead ag (s.tteHome core e) idx) fun xs s =>
      let rs := xs.map fun x => convert et rm false false (fp32.decode x)
      (s.accWrite ag (s.tteHome core dst) (elemBytes et) (idx.zip (rs.map (·.code)))).andThen fun s =>
        Run.andThen (if clear then s.accWrite ag (s.tteHome core e) 4 (idx.map fun i => (i, 0)) else (s, none)) fun s =>
          ((s.countEventsOn core (rs.map (·.ev))).releaseOf ag rel, none))
  | .release => none

/-- The head of a core's queue, when it may run: its tensors are ready, and no earlier command of its context that is
not complete names a tile of its own. -/
def State.mxHead (s : State) (core : Nat) : Option MxCmd :=
  match (s.coreAt core).mx.queue with
  | [] => none
  | q :: _ =>
    if s.topReady q.from_.id && (s.mxTiles core q.op).all (fun h => !s.tileBefore h q.from_.id (some q.from_.ident)) then some q else none

/-- The head of a core's queue has its turn, if it satisfies a test: it is discarded, or runs. -/
def State.mxTurn (s : State) (core : Nat) (p : MxOp → Bool) : Option State :=
  match s.mxHead core with
  | none => none
  | some q =>
    if !p q.op then none
    else if s.discards core q.from_ true then some (s.mxPop core q.from_.id)
    else
      match s.mxRun core q with
      | some (t, none) => some (t.mxPop core q.from_.id)
      | _ => none

/-- The head's fault, if it meets one. -/
def State.mxFault (s : State) (core id : Nat) (refused : Bool) : Option State :=
  match s.mxHead core with
  | none => none
  | some q =>
    if q.from_.id != id || s.discards core q.from_ true then none
    else
      match s.mxRun core q with
      | some (t, some stop) => (stop.ending refused).map fun e => ((t.mxPop core id).ends core q.from_ true e).refusedAt core stop
      | _ => none

/-- A queued mxz runs (R336). -/
def execAccumulatorZeroed (core : Nat) (s : State) : Result :=
  .next ((s.mxTurn core fun o => match o with | .zero _ _ _ => true | _ => false).getD s)

/-- A chunk finishes loading (R337). -/
def execChunkLoaded (core : Nat) (s : State) : Result :=
  .next ((s.mxTurn core fun o => match o with | .loadB _ _ _ _ _ _ _ _ _ _ => true | _ => false).getD s)

/-- A queued mxa accumulates (R332). -/
def execAccumulate (core : Nat) (s : State) : Result :=
  .next ((s.mxTurn core fun o => match o with | .streamA _ _ _ _ _ _ _ _ _ _ _ _ => true | _ => false).getD s)

/-- A queued mxo runs (R338). -/
def execAccumulatorConverted (core : Nat) (s : State) : Result :=
  .next ((s.mxTurn core fun o => match o with | .convert _ _ _ _ _ _ _ _ => true | _ => false).getD s)

/-! ### Forwarding (R331) -/

/-- The first chunk that waits to go south reaches the neighbour's ready command; none when there is none. It goes by a network of its
own, through no link slot of R211 and under no link claim (R322). -/
def State.forwardSouth (s : State) (core : Nat) : Option State :=
  match (s.coreAt core).mx.southward, neighbour core .s with
  | b :: bs, some d =>
    match s.mxHead d with
    | some q =>
      match q.op with
      | .loadB _ _ _ c _ _ _ acq true forward =>
        if s.discards d q.from_ true then none
        else
          let s := s.mapMx core fun m => { m with southward := bs }
          if sameFormats b.cue c then
            let s := (s.acquireFor (q.from_.agent d .matrix) acq).loadChunk d b q.epoch forward
            some (s.mxPop d q.from_.id)
          else some ((s.mxPop d q.from_.id).recordFault d q.from_ true 0x0A10 0)
      | _ => none
    | none => none
  | _, _ => none

/-- The first stream of rows that waits to go east reaches the neighbour's ready command; none when there is none. It too goes through
no link slot and under no link claim (R322). R331 states the mismatch of an A stream by its row count; DESIGN CHOICE (log 54): one whose
formats or block size differ from those of the command's cue is a mismatch too. -/
def State.forwardEast (s : State) (core : Nat) : Option State :=
  match (s.coreAt core).mx.eastward, neighbour core .e with
  | a :: as, some d =>
    match s.mxHead d with
    | some q =>
      match q.op with
      | .streamA _ _ _ c _ _ acq true forward e m n =>
        if s.discards d q.from_ true then none
        else
          let s := s.mapMx core fun u => { u with eastward := as }
          if a.rows = m && sameFormats a.cue c then
            let ag := q.from_.agent d .matrix
            let r : Run := match (s.coreAt d).mx.chunk with
              | some b => (s.acquireFor ag acq).accumulate ag d (s.tteHome d e) m n a b
              | none => (s, none)
            match r with
            | (s, none) => some ((s.mapMx d fun u => if forward then { u with eastward := u.eastward ++ [a] } else u).mxPop d q.from_.id)
            | (s, some stop) => (stop.ending false).map fun e => (s.mxPop d q.from_.id).ends d q.from_ true e
          else some ((s.mxPop d q.from_.id).recordFault d q.from_ true 0x0A10 0)
      | _ => none
    | none => none
  | _, _ => none

/-- A chunk or a stream of rows is forwarded to a neighbour's ready command. -/
def State.forward (s : State) (core : Nat) : Option State :=
  match s.forwardSouth core with
  | some t => some t
  | none => s.forwardEast core

/-- Forwarding (R331). -/
def execChunkForward (core : Nat) (s : State) : Result := .next ((s.forward core).getD s)

/-- One thing that a core's matrix unit, or the forwarding to it, can do; none when there is nothing. -/
def State.mxProgress (s : State) (core : Nat) : Option State :=
  match s.mxTurn core fun _ => true with
  | some t => some t
  | none =>
    match s.forward core with
    | some t => some t
    | none =>
      match (neighbour core .n).bind s.forwardSouth with
      | some t => some t
      | none =>
        match (neighbour core .w).bind s.forwardEast with
        | some t => some t
        | none => ((s.coreAt core).mx.queue.head?).bind fun q => s.mxFault core q.from_.id false

/-! ### The MX instructions (R334-R339) -/

/-- A tile destination, or another class (R334). -/
def tileSpec (p : Spec) : Bool := (tileOf p).isSome

/-- The focused context must hold the matrix claim (R327). -/
def State.claimed (s : State) : Act Unit := require (s.core.mx.claim == some s.slot.par.ident) 0x0A00

/-- Placing a matrix command of the focused context in its core's queue (R323). -/
def State.mxPush (s : State) (op : MxOp) : Act State :=
  if s.core.mx.queue.length ≥ Config.mxQueue then blockOn .other
  else
    let q : MxCmd := { from_ := s.origin, op := op, epoch := s.core.mx.epoch }
    .ok (State.numbered { s with core := { s.core with mx := { s.core.mx with queue := s.core.mx.queue ++ [q] } } })

/-- Whether the configuration names a neighbour outside the link rectangle (R335). -/
def State.offRectangle (s : State) (w : Word) : Bool :=
  (w.getLsbD 0 && (s.linkNeighbour .n).isNone) || (w.getLsbD 1 && (s.linkNeighbour .s).isNone)
    || (w.getLsbD 2 && (s.linkNeighbour .w).isNone) || (w.getLsbD 3 && (s.linkNeighbour .e).isNone)

/-- A unit that a context takes or holds, with a configuration. -/
def MxUnit.configured (m : MxUnit) (ident : Nat) (w : Word) : MxUnit :=
  let cfg := w.extractLsb' 0 5 &&& 0x0F
  if m.claim == some ident && m.cfg == cfg then m
  else { m with claim := some ident, cfg := cfg, lastCue := none, epoch := m.epoch + 1, acc := if m.claim == some ident then m.acc else none }

/-- The release that REL asks for, once the earlier commands have completed. -/
def State.releaseClaim (s : State) : State :=
  let q : MxCmd := { from_ := s.origin, op := .release, epoch := s.core.mx.epoch }
  State.numbered { s with core := { s.core with mx := MxUnit.settle { s.core.mx with queue := s.core.mx.queue ++ [q] } } }

/-- mxr (R335). It takes the matrix unit's claim; forwarding needs no link claim (R322). -/
def execMxr (x : Ext) (s : State) : Result :=
  .next (s.issue (specChecks [x.oa] [x.od]) (scalarsOf [x.od, x.oa]) .drain fun s => do
    let (w, s) ← s.readS (opdOf x.oa)
    require (field w 5 59 == 0) 0x0101
    require (!s.offRectangle w) 0x0806
    let free := s.core.mx.claim.isNone || s.core.mx.claim == some s.slot.par.ident
    let s := if free then { s with core := { s.core with mx := s.core.mx.configured s.slot.par.ident w } } else s
    let s := if free && w.getLsbD 4 then s.releaseClaim else s
    let s ← s.writeS (opdOf x.od) (if free then 1 else 0)
    .ok (s.advance 12))

/-- The bound accumulator of the focused core, READY and long enough. -/
def State.accumulator (s : State) : Act (Nat × Nat × Nat) :=
  match s.core.mx.acc with
  | none => trapOf 0x0A01
  | some (e, m, n) => do
    s.tileArmed e
    require (4 * m * n ≤ s.tileLen (s.tteHome s.coreId e)) 0x0A01
    .ok (e, m, n)

/-- mxz (R336). -/
def execMxz (x : Ext) (s : State) : Result :=
  let c := specChecks [x.ob] []
  .next (s.issue { c with operand := c.operand || !tileSpec x.od } (scalarsOf [x.ob]) .drain fun s => do
    let (w, s) ← s.readS (opdOf x.ob)
    s.claimed
    let e := (tileOf x.od).getD 0
    let m := field w 0 16
    let n := field w 16 16
    require (field w 32 32 == 0 && 1 ≤ m && m ≤ 4096 && 1 ≤ n && n ≤ 96) 0x0A01
    s.tileArmed e
    require (4 * m * n ≤ s.tileLen (s.tteHome s.coreId e)) 0x0A01
    let s ← s.mxPush (.zero e m n)
    let s := { s with core := { s.core with mx := { s.core.mx with acc := some (e, m, n) } } }
    .ok (s.advance 12))

/-- Whether a specifier may name an operand or scales: a tile, or a scalar register that holds a handle. -/
def mxSpec (p : Spec) : Bool := tileSpec p || srcSpec p

/-- Whether OB is w0 exactly when the cue has no block scale, and OC exactly when it has no tensor scale (R334). -/
def scalesMatch (x : Ext) (c : BitVec 24) : Bool := (x.ob == Spec.zero) == (cueBlock c == 0) && (x.oc == Spec.zero) == (cueTsf c == 0)

/-- Whether the focused context's `mxb` (`mxa`) takes what its neighbour forwards: BIN (AIN) of the configuration that it
holds. -/
def State.fromNeighbour (s : State) (bit : Nat) : Bool := s.core.mx.claim == some s.slot.par.ident && s.core.mx.cfg.getLsbD bit

/-- The cue with which the chunk is loaded that a command of the focused context, issued now, finds current: that of the
last `mxb` of the present configuration that is still to run, else the current chunk's (R329, R337). -/
def State.currentCue (s : State) : Option (BitVec 24) :=
  let m := s.core.mx
  let coming := m.queue.any fun q => q.epoch == m.epoch && !s.discards s.coreId q.from_ true
    && (match q.op with | .loadB _ _ _ _ _ _ _ _ _ _ => true | _ => false)
  if coming then m.lastCue
  else match m.chunk with
    | some b => if m.chunkEpoch = m.epoch then some b.cue else none
    | none => none

/-- The checks of `mxb` and `mxa`, with the bit of BIN or AIN: their cue, and their operands; that of an `mxa` agrees with the
current chunk's, where there is one (R329, R334). -/
def State.mxChecks (s : State) (x : Ext) (bit : Nat) : Checks :=
  { formats := true
    operand := mxCueBad s.pendingCue || !(mxSpec x.oa && mxSpec x.ob && srcSpec x.od && srcSpec x.oc)
      || (!s.fromNeighbour bit && !scalesMatch x ((s.pendingCue).getD 0))
      || (bit == 2 && s.core.mx.claim == some s.slot.par.ident
        && (match s.currentCue with | some c => !sameFormats ((s.pendingCue).getD 0) c | none => false))
    queue := [x.od, x.oa, x.ob, x.oc].any specQueue }

/-- A handle as an operand or its scales: a tensor of the format, with the origin's i2 and i3 inside it. -/
def State.mxHandle (s : State) (h : Word) (bit : Nat) (f : Fmt) (org : Word) : Act MxSource := do
  let t ← s.named h
  let o := originOf org
  require (t.fmt == f && o.2.2.1 < t.d2 && o.2.2.2 < t.d3) 0x0A01
  needBit bit [t]
  .ok (.tensor h)

/-- An operand or its scales: none for w0, a READY tile long enough for its image, or a handle. -/
def State.mxSource (s : State) (p : Spec) (h : Word) (bit : Nat) (f : Fmt) (bytes : Nat) (org : Word) : Act MxSource :=
  match tileOf p with
  | some n => do
    s.tileArmed n
    let home := s.tteHome s.coreId n
    require (bytes ≤ s.tileLen home) 0x0A01
    .ok (.tile home.1 home.2)
  | none => s.mxHandle h bit f org

/-- The scalar value of a specifier that may be a tile. -/
def State.mxRead (s : State) (p : Spec) : Act (Word × State) :=
  match p with
  | .s o => s.readS o
  | _ => .ok (0, s)

/-- The tensor scale as a command keeps it (R337). -/
def scaleBits (c : BitVec 24) (w : Word) : Word := if cueTsf c = 1 then w &&& 0xFFFF else w &&& 0xFFFFFFFF

/-- Accepting a command's operation on the handles it names (R305, R330). -/
def State.acceptHandles (s : State) (src scales : MxSource) : State :=
  let id := s.ids + 1
  let h (m : MxSource) : List Word := match m with | .tensor h => [h] | _ => []
  match h src ++ h scales with
  | [] => s
  | [a] => { (s.accept a 0 (.engine id false)) with ids := s.ids }
  | a :: b :: _ => { (s.accept a b (.engine id false)) with ids := s.ids }

/-- What `mxb` and `mxa` share once their operands are read: the operand and its scales, or none under BIN or AIN. -/
def State.mxOperands (s : State) (x : Ext) (c : BitVec 24) (f : Fmt) (fromNeighbour : Bool) (bit : Nat) (a b org : Word)
    (image scaleImage k0 : Nat) : Act (MxSource × MxSource) := do
  let bare := x.oa == Spec.zero && x.ob == Spec.zero && x.oc == Spec.zero && x.od == Spec.zero && x.imm == 0
  if fromNeighbour then do
    require bare 0x0A01
    .ok (.none, .none)
  else do
    let named := (tileOf x.oa).isNone || (x.ob != Spec.zero && (tileOf x.ob).isNone)
    require (!named || k0 % kBlock c == 0) 0x0A01
    let src ← s.mxSource x.oa a bit f image org
    let sc ← if x.ob = Spec.zero then .ok .none else s.mxSource x.ob b bit .uint8 scaleImage org
    .ok (src, sc)

/-- mxb (R337). -/
def execMxb (x : Ext) (s : State) : Result :=
  .next (s.issue (s.mxChecks x 0) (scalarsOf [x.od, x.oa, x.ob, x.oc]) .drain fun s => do
    let cue := (s.pendingCue).getD 0
    s.twiceCheck (linksOf (scalarsOf [x.oa, x.ob, x.oc, x.od]))
    let (a, s) ← s.mxRead x.oa
    let (b, s) ← s.mxRead x.ob
    let (t, s) ← s.mxRead x.oc
    let (org, s) ← s.mxRead x.od
    s.claimed
    let north := s.core.mx.cfg.getLsbD 0
    let f := cueBf cue
    let n := x.imm.toNat % 128
    let k := x.imm.toNat / 256 % 256
    require (north || (1 ≤ n && n ≤ chunkN f && 1 ≤ k && k ≤ chunkK f)) 0x0A01
    let (src, sc) ← s.mxOperands x cue f north 11 a b org (k * chunkN f * elemStorage f / 8)
      (blocksOf cue k * chunkN f * entryBits cue f / 8) (originOf org).2.1
    let s := s.acceptHandles src sc
    let s ← s.mxPush (.loadB src sc org cue (scaleBits cue t) n k (Sys2Proof.Machine.Ext.acqScope x) north (s.core.mx.cfg.getLsbD 1))
    let s := { s with core := { s.core with mx := { s.core.mx with lastCue := some cue } }, slot := s.slot.takeCue }
    .ok (s.advance 12))

/-- mxa (R337). -/
def execMxa (x : Ext) (s : State) : Result :=
  .next (s.issue (s.mxChecks x 2) (scalarsOf [x.od, x.oa, x.ob, x.oc]) .drain fun s => do
    let cue := (s.pendingCue).getD 0
    s.twiceCheck (linksOf (scalarsOf [x.oa, x.ob, x.oc, x.od]))
    let (a, s) ← s.mxRead x.oa
    let (b, s) ← s.mxRead x.ob
    let (t, s) ← s.mxRead x.oc
    let (org, s) ← s.mxRead x.od
    s.claimed
    let west := s.core.mx.cfg.getLsbD 2
    let f := cueAf cue
    let k := x.imm.toNat / 256 % 256
    match s.currentCue with
    | none => trapOf 0x0A01
    | some _ => do
      require (west || (1 ≤ k && k ≤ chunkK f)) 0x0A01
      let (e, m, n) ← s.accumulator
      let (src, sc) ← s.mxOperands x cue f west 10 a b org (m * chunkK f * elemStorage f / 8)
        (m * (chunkK f / kBlock cue) * entryBits cue f / 8) (originOf org).1
      let s := s.acceptHandles src sc
      let s ← s.mxPush (.streamA src sc org cue (scaleBits cue t) k (Sys2Proof.Machine.Ext.acqScope x) west (s.core.mx.cfg.getLsbD 3) e m n)
      .ok (State.advance { s with slot := s.slot.takeCue } 12))

/-- mxo (R338). -/
def execMxo (x : Ext) (s : State) : Result :=
  .next (s.issue { reserved := !(x.et == .fp32 || x.et == .bf16 || x.et == .fp16), operand := !tileSpec x.od } [] .drain fun s => do
    s.claimed
    let (e, m, n) ← s.accumulator
    let d := (tileOf x.od).getD 0
    s.tileArmed d
    let home := s.tteHome s.coreId d
    require (home != s.tteHome s.coreId e && elemBytes x.et * m * n ≤ s.tileLen home) 0x0A01
    let s ← s.mxPush (.convert e m n d x.et (modeOf x.ro none s.slot.status) (x.imm.getLsbD 0) (Sys2Proof.Machine.Ext.relScope x))
    .ok (s.advance 12))

/-- Whether a matrix command of the focused context has not completed. -/
def State.mxPending (s : State) : Bool := s.core.mx.queue.any fun q => q.from_.ident == s.slot.par.ident && q.op != .release

/-- Whether the focused context's kernel runs. -/
def State.kernelRuns (s : State) : Bool := match s.kernel with | some k => k.runs | none => true

/-- mxw (R339). The claim is asked for as the instruction is issued (R327), not again while it waits: an earlier `mxr` with REL may
end it meanwhile. -/
def execMxw (x : Ext) (s : State) : Result :=
  .next (s.issue (specChecks [] [x.od]) (scalarsOf [x.od]) .drain fun s => do
    if s.slot.st = .waiting then .ok () else s.claimed
    if !s.kernelRuns then do
      let s ← s.writeS (opdOf x.od) 0
      .ok (s.yieldPoint.advance 12)
    else if s.mxPending then .error (.wait (let t := s.waits; (t.mxProgress t.coreId).getD t))
    else
      match s.faultOf true with
      | some f => .ok (s.faultUpcall f)
      | none => do
        let s ← (s.covered fun _ e => e == .matrix).writeS (opdOf x.od) 1
        .ok (s.yieldPoint.advance 12))

end Sys2Proof.Machine
end

