-- ==== Sys2Proof/Machine/Copy.lean ====
section
/-! DEFINITION. The copy engine: the xcopy instructions, the running of their commands, and xwait (R340-R346). -/

namespace Sys2Proof.Machine

/-! ### Streams (R341, R75) -/

/-- The codes of a stream packed from byte 0. -/
def packCodes (f : Fmt) (codes : List Nat) : List Byte :=
  let w := elemStorage f
  toBytes ((codes.length * w + 7) / 8) (((codes.mapIdx fun i c => c % 2 ^ elemWidth f * 2 ^ (i * w))).sum)

/-- n codes unpacked from a stream. -/
def unpackCodes (f : Fmt) (n : Nat) (bs : List Byte) : List Nat :=
  let x := ofBytes bs
  (List.range n).map fun i => x / 2 ^ (i * elemStorage f) % 2 ^ elemWidth f

/-- The bytes of a stream of n elements. -/
def streamBytes (f : Fmt) (n : Nat) : Nat := (n * elemStorage f + 7) / 8

/-! ### A core's copy queue -/

/-- A copy command of a core, by its number. -/
def State.xcmd (s : State) (core id : Nat) : Option XCmd := (s.coreAt core).xq.find? fun c => c.from_.id == id

/-- Replacing a copy command. -/
def State.setXcmd (s : State) (core : Nat) (c : XCmd) : State :=
  let k := s.coreAt core
  s.setCore core { k with xq := k.xq.map fun d => if d.from_.id = c.from_.id then c else d }

/-- A copy command leaves its queue: its operation on handles is performed, and bytes still in its barrier's count
leave it. DESIGN CHOICE (log 54): they do so too when the command itself has faulted; R344 says it of discarded commands. -/
def State.xcmdGone (s : State) (core : Nat) (c : XCmd) : State :=
  let k := s.coreAt core
  let s := (s.setCore core { k with xq := k.xq.filter fun d => d.from_.id != c.from_.id }).topDone c.from_.id
  match c.barrier with
  | some b => s.bytesLeave c.from_.kid b c.left
  | none => s

/-- The commands ahead of one in its core's queue. -/
def State.ahead (s : State) (core id : Nat) : List XCmd := (s.coreAt core).xq.takeWhile fun c => c.from_.id != id

/-- Whether a command has begun. -/
def XCmd.begun (c : XCmd) : Bool := c.targets.any (·.begun)

/-- Whether a command may begin: those ahead have begun (R345), and its handle may be used. -/
def State.mayBegin (s : State) (core : Nat) (c : XCmd) : Bool := (s.ahead core c.from_.id).all XCmd.begun && s.topReady c.from_.id

/-- What a command of a core sees: the writes of the commands ahead of it there, and of earlier ones (R345), and those of the
bank transforms that its context had made when it was issued (R348). -/
def State.seesEarlier (s : State) (a : Agent) (core : Nat) (o : Origin) : State :=
  { s with hist := s.hist.map fun r =>
      match r.by_ with
      | .command _ c _ j (.copy _) => if c = core && j < o.id then r.see a else r
      | b => if r.bank && b == o.by_ && r.seq < o.issued then r.see a else r }

/-- The engine's agent for a command. -/
def XCmd.agent (c : XCmd) (core : Nat) : Agent := c.from_.agent core (.copy c.entry)

/-! ### The memory side (R342) -/

/-- A row index list of n words (R341). -/
def State.rowList (s : State) (a : Agent) (core : Nat) (va : Word) : Nat → Cmd (List Nat × State)
  | 0 => .ok ([], s)
  | n + 1 => do
    let (bs, s) ← s.cmdRead a core va 4
    let (xs, s) ← s.rowList a core (va + 4) n
    .ok (ofBytes bs :: xs, s)

/-- The codes of tensor rows, a row index outside the tensor giving zero codes. -/
def State.gatherRows (s : State) (a : Agent) (t : Tensor) : List Nat → List Nat × State
  | [] => ([], s)
  | x :: xs =>
    let r := if x < t.d1 then s.readElems a t ((List.range t.d0).map fun i => t.at i x 0 0) else (List.replicate t.d0 0, s)
    let rest := r.2.gatherRows a t xs
    (r.1 ++ rest.1, rest.2)

/-- Writing rows of codes to tensor rows, as writes attached to a barrier where there is one, each over the links to the tensor's home
(R395), with protection and injection (R266, R370); a row
index outside the tensor writes nothing. -/
def State.scatterRows (s : State) (a : Agent) (t : Tensor) (bar : Option (Nat × Nat × Nat × Bool)) (codes : List Nat) :
    Nat → List Nat → Run
  | _, [] => (s, none)
  | j, x :: xs =>
    let put (s : State) (i : Nat) : State :=
      (s.storeRec a (t.key (t.at i x 0 0)) ((toBytes 4 (codes.getD (j * t.d0 + i) 0)).map some) none bar).inject (t.key (t.at i x 0 0)) 4
    if x < t.d1 then
      match asCmd (do s.toTensor a t; s.checkWrite a (t.key (t.at 0 x 0 0)) (4 * t.d0)) with
      | .ok s => State.scatterRows ((List.range t.d0).foldl put s) a t bar codes (j + 1) xs
      | .error e => (s, some e)
    else State.scatterRows s a t bar codes (j + 1) xs

/-- The stream that a fill or a gather reads, once, after its acquire half. DESIGN CHOICE (log 54): the halves of a command's ACQ and REL
are the command agent's (R342), also of a command that names a handle, whose element accesses are its context's (R296): its ACQ half
does not bind those reads, and its REL half does not publish those writes. -/
def State.readStream (s : State) (core : Nat) (c : XCmd) : Cmd (List Byte × State) := do
  let a := c.agent core
  let s := (s.seesEarlier a core c.from_).acquireFor a c.acq
  match c.mode with
  | .fill l => do
    let (cs, s) ← s.cmdReadWalk a core l.fmt l.walk
    .ok (packCodes l.fmt cs, s)
  | .gather h list n => do
    let (xs, s) ← s.rowList a core list n
    match s.tensorAt h with
    | some t => do
      asCmd (s.toTensor a t)
      let s ← asCmd (s.tensorScan c.from_.by_ t ((xs.filter (· < t.d1)).flatMap fun x => (List.range t.d0).map fun i => t.at i x 0 0) fun _ => true)
      let r := s.gatherRows c.from_.by_ t xs
      .ok (packCodes t.fmt r.1, r.2)
    | none => .ok ([], s)
  | _ => .ok ([], s)

/-- One byte at a time, a command's write of some bytes: what it has written, and how it stopped if it did. -/
def State.cmdWriteBytes (s : State) (a : Agent) (core : Nat) (va : Word) (bar : Option (Nat × Nat × Nat × Bool)) :
    List Byte → Run
  | [] => (s, none)
  | b :: bs =>
    match s.cmdWrite a core va [b] bar with
    | .ok t => t.cmdWriteBytes a core (va + 1) bar bs
    | .error e => (s, some e)

/-- The bytes that an element's write writes: the other elements of a shared byte keep the values read. -/
def State.elemWriteBytes (s : State) (a : Agent) (core : Nat) (f : Fmt) (at_ : Word × Nat) (code : Nat) : Cmd (List Byte × State) :=
  if elemStorage f ≥ 8 then .ok (withCode f [] at_.2 code, s)
  else do
    let (key, s) ← s.cmdKey a core at_.1 1 .store
    .ok (withCode f (Memory.bytes s.mem key 1) at_.2 code, s)

/-- A drain's writes of the elements of a walk, in order. -/
def State.drainWalk (s : State) (a : Agent) (core : Nat) (f : Fmt) (bar : Option (Nat × Nat × Nat × Bool)) :
    List (Option (Word × Nat)) → List Nat → Run
  | some e :: es, c :: cs =>
    match s.elemWriteBytes a core f e c with
    | .error x => (s, some x)
    | .ok (bs, t) =>
      match t.cmdWriteBytes a core e.1 bar bs with
      | (t, none) => t.drainWalk a core f bar es cs
      | (t, some x) => (t, some x)
  | none :: es, _ :: cs => s.drainWalk a core f bar es cs
  | _, _ => (s, none)

/-- The tile stream of a drain or a scatter. -/
def State.tileStream (s : State) (a : Agent) (home : Nat × Nat) (n : Nat) : Cmd (List Byte × State) :=
  if n = 0 then .ok ([], s) else s.tileGet a home 0 n

/-- What a drain or a scatter moves: the state, and how it stopped if it did. -/
def State.moveOut (s : State) (core : Nat) (c : XCmd) (home : Nat × Nat) : Run :=
  let a := c.agent core
  let s := (s.seesEarlier a core c.from_).acquireFor a c.acq
  let bar := s.attach c.from_.kid c.barrier
  match s.tileStream a home c.len with
  | .error x => (s, some x)
  | .ok (bs, s) =>
    match c.mode with
    | .drain l => s.drainWalk a core l.fmt bar l.walk (unpackCodes l.fmt (l.e0 * l.e1 * l.e2 * l.e3) bs)
    | .scatter h list n =>
      match s.rowList a core list n with
      | .error x => (s, some x)
      | .ok (xs, s) =>
        match s.tensorAt h with
        | some t => s.scatterRows c.from_.by_ t bar (unpackCodes t.fmt (n * t.d0) bs) 0 xs
        | none => (s, none)
    | _ => (s, none)

/-! ### Fills and gathers (R258, R342, R343) -/

/-- A target of a command with its marks changed. -/
def XCmd.mark (c : XCmd) (i : Nat) (f : XTarget → XTarget) : XCmd :=
  { c with targets := c.targets.mapIdx fun j t => if j = i then f t else t }

/-- Setting ST of a tile. -/
def State.setSt (s : State) (home : Nat × Nat) (st : Nat) : State :=
  s.setTte home.1 home.2 (setField (s.tteAt home.1 home.2) 62 2 st)

/-- One byte at a time, the stream written to a tile, of which the bits past the stream's end in its last byte keep their
values (R341): the state, and how it stopped if it did. -/
def State.tileWrite (s : State) (a : Agent) (home : Nat × Nat) (bar : Option (Nat × Nat × Nat × Bool)) (spare : Nat) :
    Nat → List Byte → Run
  | _, [] => (s, none)
  | off, b :: bs =>
    if bs.isEmpty && spare != 0 then
      s.reading (s.tileGet a home off 1) fun old s =>
        let used := 2 ^ (8 - spare)
        match s.tilePut a home off (toBytes 1 (b.toNat % used + ofBytes old / used * used)) bar with
        | .ok t => (t, none)
        | .error e => (s, some e)
    else
      match s.tilePut a home off [b] bar with
      | .ok t => t.tileWrite a home bar spare (off + 1) bs
      | .error e => (s, some e)

/-- Bytes of a command leave its barrier's count. -/
def State.leaves (s : State) (core : Nat) (c : XCmd) (n : Nat) : State :=
  match c.barrier with
  | some b => (s.setXcmd core { c with left := c.left - n }).bytesLeave c.from_.kid b n
  | none => s.setXcmd core c

/-- The stream of a command reaches target i: written there, the tile is READY (R258); after the last target comes the release
half, and then its bytes leave the barrier's count (R280, R344). -/
def State.fillTarget (s : State) (core : Nat) (c : XCmd) (i : Nat) (home : Nat × Nat) : Run :=
  let a := c.agent core
  s.reading (match c.stream with
      | some bs => .ok (bs, s)
      | none => s.readStream core c) fun bs s =>
    let c := { c with stream := some bs }
    ((s.setXcmd core c).tileWrite a home (s.attach c.from_.kid c.barrier) c.spare 0 bs).andThen fun s =>
      let c := c.mark i fun g => { g with moved := true }
      let s := s.setSt home 2
      ((if c.targets.all (·.moved) then s.releaseOf a c.rel else s).leaves core c c.len, none)

/-- The home of target i of a command. -/
def XCmd.home (c : XCmd) (i : Nat) : Option (Nat × Nat) := (c.targets[i]?).map fun t => (t.core, t.entry)

/-- Where the memory side of a command of a core lies in its local window, its list of rows too: keys and bytes. -/
def XCmd.windowRanges (c : XCmd) (core : Nat) : List (Nat × Nat) :=
  let here (a : Word) (n : Nat) : Option (Nat × Nat) :=
    if a.toNat ≥ Config.windowBase then some (spKey core (a.toNat - Config.windowBase), n) else none
  match c.mode with
  | .gather _ list n | .scatter _ list n => (here list (4 * n)).toList
  | .fill l | .drain l => l.walk.filterMap fun e => e.bind fun p => here p.1 (elemBytes l.fmt)

/-- Whether two ranges of keys share a byte. -/
def rangesMeet (a b : Nat × Nat) : Bool := a.1 < b.1 + b.2 && b.1 < a.1 + a.2

/-- Whether a command fills its targets. -/
def XMode.fills : XMode → Bool
  | .fill _ => true
  | .gather _ _ _ => true
  | _ => false

/-- Whether a command may move its bytes to or from a tile: none ahead of it has still to write a tile's bytes that it touches, and
each has moved its stream from memory, or to it, or only reads there, as the command itself does, and not the bytes of its tile
(R345). DESIGN CHOICE (log 30): where one of two commands writes on its memory side, they do not overlap, even if they share no
byte. -/
def State.streamsAhead (s : State) (core : Nat) (c : XCmd) (home : Nat × Nat) : Bool :=
  let tile := (s.tileKey home 0, c.len)
  (s.ahead core c.from_.id).all fun d =>
    (d.stream.isSome || (c.mode.fills && d.mode.fills && !(d.windowRanges core).any (rangesMeet tile)))
      && d.targets.all fun t => t.moved || !(tile :: c.windowRanges core).any (rangesMeet (s.tileKey (t.core, t.entry) 0, d.len))

/-- Whether a matrix command of another context, issued later than a number and not complete, names a tile. -/
def State.tileAfter (s : State) (home : Nat × Nat) (id ident : Nat) : Bool :=
  (List.range 16).any fun p =>
    let c := clusterMate home.1 p
    (s.coreAt c).mx.queue.any fun q => id < q.from_.id && q.from_.ident != ident && (s.mxTiles c q.op).contains home

/-- Whether target i of a command can begin: the command may, its tile has the state, and no issued instruction that
names the tile is uncompleted (R258, R324); of two copies the one issued first goes first. -/
def State.canBegin (s : State) (core : Nat) (c : XCmd) (i st : Nat) : Bool :=
  match c.home i, c.targets[i]? with
  | some home, some t =>
    !t.begun && s.mayBegin core c && tteSt (s.tteAt home.1 home.2) == st && !s.tileBefore home c.from_.id none
      && !s.tileAfter home c.from_.id c.from_.ident
  | _, _ => false

/-- A fill begins on target i (R342), or its command is discarded; none when it cannot. -/
def State.fillBegins (s : State) (core id i : Nat) : Option State :=
  match s.xcmd core id with
  | none => none
  | some c =>
    if !c.mode.fills then none
    else if !c.begun && s.mayBegin core c && s.discards core c.from_ false then some (s.xcmdGone core c)
    else if !s.canBegin core c i 0 then none
    else
      match c.home i with
      | none => none
      | some home => some ((s.setSt home 1).setXcmd core (c.mark i fun t => { t with begun := true }))

/-- What moving a begun command's stream to target i, or from its tile, does: how it stops, if it does; none when it is not
its turn. -/
def State.xcmdTry (s : State) (core : Nat) (c : XCmd) (i : Nat) : Option Run :=
  match c.home i, c.targets[i]? with
  | some home, some t =>
    if !t.begun || t.moved || !s.streamsAhead core c home then none
    else if c.mode.fills then some (s.fillTarget core c i home)
    else some (s.moveOut core c home)
  | _, _ => none

/-- A fill completes on target i, and the command with its last target; none when it cannot. -/
def State.fillCompletes (s : State) (core id i : Nat) : Option State :=
  match s.xcmd core id with
  | none => none
  | some c =>
    if !c.mode.fills then none
    else
      match s.xcmdTry core c i with
      | some (t, none) =>
        match t.xcmd core id with
        | some d => some ((if d.targets.all (·.moved) then t.xcmdGone core d else t).letThrough s (.command id))
        | none => some t
      | _ => none

/-- What a command's access that cannot be made now asks for (R381, R385). -/
def State.xcmdAsks (s : State) (core id i : Nat) : State :=
  match s.xcmd core id with
  | none => s
  | some c => match s.xcmdTry core c i with
    | some (_, some stop) => s.stalled (c.agent core) core stop
    | _ => s

/-- A fill begins. -/
def execFillBegins (core id target : Nat) (s : State) : Result := .next ((s.fillBegins core id target).getD s)

/-- A fill completes, or its access waits. -/
def execFillCompletes (core id target : Nat) (s : State) : Result :=
  .next ((s.fillCompletes core id target).getD (s.xcmdAsks core id target))

/-! ### Drains and scatters (R258, R342) -/

/-- A drain begins, or its command is discarded; none when it cannot. -/
def State.drainBegins (s : State) (core id : Nat) : Option State :=
  match s.xcmd core id with
  | none => none
  | some c =>
    if c.mode.fills then none
    else if !c.begun && s.mayBegin core c && s.discards core c.from_ false then some (s.xcmdGone core c)
    else if !s.canBegin core c 0 2 then none
    else
      match c.home 0 with
      | none => none
      | some home => some ((s.setSt home 3).setXcmd core (c.mark 0 fun t => { t with begun := true }))

/-- A drain completes: its bytes are written, and leave the barrier's count after its release half, and its tile is EMPTY;
none when it cannot. -/
def State.drainCompletes (s : State) (core id : Nat) : Option State :=
  match s.xcmd core id with
  | none => none
  | some c =>
    if c.mode.fills then none
    else
      match s.xcmdTry core c 0, c.home 0 with
      | some (t, none), some home => some (((t.releaseOf (c.agent core) c.rel).setSt home 0).xcmdGone core c)
      | _, _ => none

/-- A drain begins. -/
def execDrainBegins (core id : Nat) (s : State) : Result := .next ((s.drainBegins core id).getD s)

/-- A drain completes, or its access waits. -/
def execDrainCompletes (core id : Nat) (s : State) : Result := .next ((s.drainCompletes core id).getD (s.xcmdAsks core id 0))

/-! ### Faults of running commands (R325, R343) -/

/-- The tiles of a command that it has begun and not completed become EMPTY (R258, R343). -/
def State.abandonTiles (s : State) (c : XCmd) : State :=
  c.targets.foldl (fun s t => if t.begun && !t.moved then s.setSt (t.core, t.entry) 0 else s) s

/-- A copy command's fault, if it meets one; none when it meets none. -/
def State.xcmdFault (s : State) (core id : Nat) (refused : Bool) : Option State :=
  match s.xcmd core id with
  | none => none
  | some c =>
    match (List.range c.targets.length).findSome? (s.xcmdTry core c) with
    | some (t, some stop) =>
      (stop.ending refused).map fun e =>
        (((t.abandonTiles c).xcmdGone core ((t.xcmd core id).getD c)).ends core c.from_ false e).refusedAt core stop
    | _ => none

/-- A running command faults (R325), or the operating system refuses the page it waits for (R381): one of the matrix unit, of the copy
engine, a copy of a tensor; number 0 stands for the tree's gather records. -/
def execCommandFault (core id : Nat) (refused : Bool) (s : State) : Result :=
  .next (match s.mxFault core id refused with
    | some t => t
    | none =>
      match s.xcmdFault core id refused with
      | some t => t
      | none =>
        match s.topFault core id refused with
        | some t => t
        | none => if id = 0 && refused then s.gathersRefused core else s)

/-- One thing that a copy command can do; none when there is nothing. -/
def State.xcmdProgress (s : State) (core : Nat) (c : XCmd) : Option State :=
  match (List.range c.targets.length).findSome? fun i => s.fillCompletes core c.from_.id i with
  | some t => some t
  | none =>
    match (List.range c.targets.length).findSome? fun i => s.fillBegins core c.from_.id i with
    | some t => some t
    | none =>
      match s.drainCompletes core c.from_.id with
      | some t => some t
      | none =>
        match s.drainBegins core c.from_.id with
        | some t => some t
        | none => s.xcmdFault core c.from_.id false

/-- One thing that a core's copy queue can do; none when there is nothing. -/
def State.copyProgress (s : State) (core : Nat) : Option State := (s.coreAt core).xq.findSome? (s.xcmdProgress core)

/-! ### The xcopy instructions (R340-R344) -/

/-- The checks of an xcopy: a tile, and scalars. -/
def xcopyChecks (x : Ext) (srcs : List Spec) : Checks :=
  let c := specChecks srcs []
  { c with operand := c.operand || !tileSpec x.od }

/-- The operands of an xcopy: OA, OB for a list of rows, OC for a barrier. -/
def xcopySources (x : Ext) (rows : Bool) : List Spec :=
  [x.oa] ++ (if rows then [x.ob] else []) ++ (if x.imm.getLsbD 2 then [x.oc] else [])

/-- Whether a core is one of the focused context's kernel's grid. -/
def State.inGrid (s : State) (c : Nat) : Bool :=
  match s.kernel with
  | some k => k.bands.any fun b => dieOf c == k.pkg * 8 + b.die && bandHolds b k.cols c
  | none => false

/-- The cores that a multicast mask names. -/
def State.maskCores (s : State) (mask : Nat) : List Nat :=
  ((List.range 16).filter fun p => mask / 2 ^ p % 2 = 1).map (clusterMate s.coreId)

/-- The homes that an xcopy of some bytes names (R343), none shorter than its stream (R341). The stream's length comes
first, against the tiles that are named: an entry that holds none of the kernel's tiles has no LEN to compare (log 30). -/
def State.copyHomes (s : State) (n mask len : Nat) : Act (List (Nat × Nat)) :=
  if mask = 0 then do
    require (len ≤ s.tileLen (s.tteHome s.coreId n)) 0x0A02
    .ok [s.tteHome s.coreId n]
  else do
    let cs := s.maskCores mask
    let holds (c : Nat) : Bool := s.ownsTile c s.slot.tag n && !tteWin (s.tteAt c n)
    require ((cs.filter fun c => s.inGrid c && holds c).all fun c => len ≤ s.tileLen (c, n)) 0x0A02
    require (cs.all s.inGrid) 0x0902
    require (cs.all holds) 0x0903
    .ok (cs.map fun c => (c, n))

/-- An xcopy is queued: the barrier's count rises by its destination bytes, and its command is placed (R323, R344). -/
def State.queueCopy (s : State) (x : Ext) (mode : XMode) (n len bits : Nat) (homes : List (Nat × Nat)) (barrier : Option Nat)
    (handle : Option Word) : Act State := do
  let dest := if mode.fills then len * homes.length else len
  let s ← match barrier, s.kernel with
    | some b, some k => match (k.barrier b).plus dest with
      | some r => .ok (s.setKernel (k.setBarrier b r))
      | none => trapOf 0x0804
    | _, _ => .ok s
  if s.core.xq.length ≥ Config.copyQueue then blockOn .other
  else
    let id := s.ids + 1
    let s := match handle with
      | some h => { (s.accept h 0 (.engine id (!mode.fills))) with ids := s.ids }
      | none => s
    let c : XCmd := {
      from_ := s.origin, mode := mode, entry := n
      targets := homes.map fun h => { core := h.1, entry := h.2, begun := false, moved := false }
      len := len, spare := 8 * len - bits, acq := Sys2Proof.Machine.Ext.acqScope x, rel := Sys2Proof.Machine.Ext.relScope x
      barrier := barrier, left := dest, stream := none }
    .ok (State.numbered { s with core := { s.core with xq := s.core.xq ++ [c] } })

/-- The barrier that an xcopy attaches (R344). -/
def attachedBarrier (x : Ext) (w : Word) : Act (Option Nat) :=
  if x.imm.getLsbD 2 then do
    let b ← barrierId w
    .ok (some b)
  else .ok none

/-- Whether an element of a layout reaches the local window (R341). -/
def reachesWindow (l : Layout) : Bool :=
  l.walk.any fun e => match e with
    | some e => e.1.toNat < 2 ^ 56 && e.1.toNat + elemBytes l.fmt > Config.windowBase
    | none => false

/-- A fill or a drain through a layout record. -/
def State.copyLayout (s : State) (x : Ext) (fill : Bool) : State :=
  let srcs := xcopySources x false
  s.issue (xcopyChecks x srcs) (scalarsOf srcs) .drain fun s => do
    s.twiceCheck (linksOf (scalarsOf srcs))
    let (a, s) ← s.readS (opdOf x.oa)
    let (w, s) ← if x.imm.getLsbD 2 then s.readS (opdOf x.oc) else .ok (0, s)
    let n := (tileOf x.od).getD 0
    let mask := if fill then x.imm.toNat / 2 ^ 16 else 0
    require (s.ownsTile s.coreId s.slot.tag n) 0x0901
    let (l, s) ← s.readLayout a
    require (!reachesWindow l) 0x0A02
    let size := l.e0 * l.e1 * l.e2 * l.e3
    let len := streamBytes l.fmt size
    let homes ← s.copyHomes n mask len
    if fill then .ok () else s.tileArmed n
    let bar ← attachedBarrier x w
    let s ← s.queueCopy x (if fill then .fill l else .drain l) n len (size * elemStorage l.fmt) homes bar none
    .ok (s.advance 12)

/-- A gather or a scatter of tensor rows (R341). DESIGN CHOICE (log 54): a list address that is no multiple of 4, and a tensor of a rank
above 2, are engine arguments, 0x0A02; no rule names their cause. -/
def State.copyRows (s : State) (x : Ext) (gather : Bool) : State :=
  let srcs := xcopySources x true
  s.issue (xcopyChecks x srcs) (scalarsOf srcs) .drain fun s => do
    s.twiceCheck (linksOf (scalarsOf srcs))
    let (h, s) ← s.readS (opdOf x.oa)
    let (list, s) ← s.readS (opdOf x.ob)
    let (w, s) ← if x.imm.getLsbD 2 then s.readS (opdOf x.oc) else .ok (0, s)
    let n := (tileOf x.od).getD 0
    let rows := x.imm.toNat / 8 % 4096
    let mask := if gather then x.imm.toNat / 2 ^ 16 else 0
    require (s.ownsTile s.coreId s.slot.tag n) 0x0901
    let t ← s.named h
    require (t.rank ≤ 1 && list.toNat % 4 == 0) 0x0A02
    let len := streamBytes t.fmt (rows * t.d0)
    let homes ← s.copyHomes n mask len
    if gather then .ok () else s.tileArmed n
    let bar ← attachedBarrier x w
    needBit (if gather then 12 else 13) [t]
    let s ← s.queueCopy x (if gather then .gather h list rows else .scatter h list rows) n len (rows * t.d0 * elemStorage t.fmt) homes bar (some h)
    .ok (s.advance 12)

/-- xcopy.fill (R342). -/
def execXcopyFill (x : Ext) (s : State) : Result := .next (s.copyLayout x true)

/-- xcopy.drain (R342). -/
def execXcopyDrain (x : Ext) (s : State) : Result := .next (s.copyLayout x false)

/-- xcopy.gather (R342). -/
def execXcopyGather (x : Ext) (s : State) : Result := .next (s.copyRows x true)

/-- xcopy.scatter (R342). -/
def execXcopyScatter (x : Ext) (s : State) : Result := .next (s.copyRows x false)

/-! ### xwait (R346) -/

/-- Whether a copy command of the focused context, naming an entry if one is given, has not completed. -/
def State.copiesPending (s : State) (n : Option Nat) : Bool :=
  s.core.xq.any fun c => c.from_.ident == s.slot.par.ident && (match n with | some n => c.entry == n | none => true)

/-- R259 step 1 on the tile that `xwait` names, as it issues. -/
def State.waitsOwn (s : State) (n : Option Nat) : Bool :=
  match n with
  | some n => s.slot.st == .waiting || s.ownsTile s.coreId s.slot.tag n
  | none => true

/-- xwait (R346). -/
def execXwait (x : Ext) (s : State) : Result :=
  let n := tileOf x.oa
  .next (s.issue { operand := n.isNone && x.oa != Spec.zero, queue := specQueue x.oa } [] .drain fun s => do
    require (s.waitsOwn n) 0x0901
    if !s.kernelRuns then .ok (s.yieldPoint.advance 12)
    else if s.copiesPending n then .error (.wait (let t := s.waits; (t.copyProgress t.coreId).getD t.tensorProgress))
    else
      match s.faultOf false with
      | some f => .ok (s.faultUpcall f)
      | none =>
        let t := s.covered fun _ e => match e with
          | .copy m => (match n with | some n => m == n | none => true)
          | _ => false
        .ok (t.yieldPoint.advance 12))

end Sys2Proof.Machine
end

