-- ==== Sys2Proof/Machine/Banks.lean ====
section
/-! DEFINITION. The bank transforms (R347, R348): performed at their place in program order, as writes of the issuing
context. -/

namespace Sys2Proof.Machine

/-! ### Types (R347) -/

/-- A type of 8, 16 or 32 bits. -/
def wholeType (f : Fmt) : Bool :=
  match f with
  | .e4m3 | .e5m2 | .int8 | .uint8 | .bf16 | .fp16 | .fp32 => true
  | _ => false

/-- A type that `bxf.scale` and `bxf.addc` take. -/
def scaledType (f : Fmt) : Bool :=
  match f with
  | .fp32 | .bf16 | .fp16 | .e4m3 | .e5m2 => true
  | _ => false

/-- A pair of types that `bxf.conv` converts between. -/
def convTypes (f g : Fmt) : Bool :=
  let eight (t : Fmt) : Bool := t == .e4m3 || t == .e5m2 || t == .int8 || t == .uint8
  (f == .bf16 && g == .fp16) || (f == .fp16 && g == .bf16) || (eight f && eight g && f != g)

/-! ### The range -/

/-- The offset and the length of a range word. -/
def rangeOff (w : Word) : Nat := field w 0 19
def rangeLen (w : Word) : Nat := field w 32 19

/-- The bytes of a tile's range as the issuing context's transform reads them. -/
def State.rangeRead (s : State) (home : Nat × Nat) (off n : Nat) : Act (List Byte × State) := do
  let key := s.tileKey home off
  require (!s.inImage home.1 (keyOffset key) n) 0x0500 (BitVec.ofNat 64 (keyOffset key))
  let s ← s.checkRead s.self key n
  .ok (s.loadHome s.self key n)

/-- Writing words of 8 bytes from a key on, each as one write of the issuing context. -/
def State.rangeWrite (s : State) (key : Nat) : List Word → Act State
  | [] => .ok s
  | w :: ws => do
    let s ← s.storeKey s.self key (toBytes 8 w.toNat) none
    s.rangeWrite (key + 8) ws

/-- The writes of the focused context from number n on are those of a bank transform (R348). -/
def State.bankWrites (s : State) (n : Nat) : State :=
  { s with hist := s.hist.map fun r => if r.by_ == s.self && n ≤ r.seq then { r with bank := true } else r }

/-- The 8-byte words of some bytes. -/
def wordsOfBytes (bs : List Byte) : List Word :=
  (List.range (bs.length / 8)).map fun i => wordOf ((bs.drop (8 * i)).take 8)

/-- A transform of a tile's range: the check of its types, R259, the range, and the elements' new codes with their
events. -/
def State.transform (s : State) (x : Ext) (oa : Bool) (types : Bool) (block : Nat) (f : Word → State → List Nat → List Out) : State :=
  let srcs := (if oa then [x.oa] else []) ++ [x.ob]
  let c := specChecks srcs []
  s.issue { c with operand := c.operand || !tileSpec x.od } (scalarsOf srcs) .drain fun s => do
    s.twiceCheck (linksOf (scalarsOf srcs))
    let (a, s) ← if oa then s.readS (opdOf x.oa) else .ok (0, s)
    let (r, s) ← s.readS (opdOf x.ob)
    let n := (tileOf x.od).getD 0
    s.tileReady n
    let home := s.tteHome s.coreId n
    let off := rangeOff r
    let len := rangeLen r
    require (types && off % 128 == 0 && len % 128 == 0 && len != 0 && off + len ≤ s.tileLen home && len % block == 0) 0x0A02
    let (bs, s) ← s.rangeRead home off len
    let codes := unpackCodes x.et (len * 8 / elemStorage x.et) bs
    let outs := f a s codes
    let t ← s.rangeWrite (s.tileKey home off) (wordsOfBytes (packCodes x.et (outs.map (·.code))))
    .ok (((t.bankWrites s.seq).countEvents (outs.map (·.ev))).advance 12)

/-! ### The transforms -/

/-- The mode of a transform, and its saturate bit. -/
def bxfMode (x : Ext) (s : State) : Rm := modeOf x.ro none s.slot.status
def bxfSat (x : Ext) : Bool := x.imm.getLsbD 3

/-- bxf.fill (R347). -/
def execBxfFill (x : Ext) (s : State) : Result :=
  .next (s.transform x true (wholeType x.et) 1 fun a _ cs => cs.map fun _ => ⟨a.toNat % 2 ^ elemStorage x.et, 0⟩)

/-- bxf.scale (R347). -/
def execBxfScale (x : Ext) (s : State) : Result :=
  .next (s.transform x true (scaledType x.et) 1 fun a s cs => cs.map fun c =>
    convert x.et (bxfMode x s) false (bxfSat x) (FVal.mul (elemValue x.et 0 c) (fp32.decode (a.toNat % 2 ^ 32))))

/-- bxf.addc (R347). -/
def execBxfAddc (x : Ext) (s : State) : Result :=
  .next (s.transform x true (scaledType x.et) 1 fun a s cs => cs.map fun c =>
    convert x.et (bxfMode x s) false (bxfSat x)
      (FVal.add (bxfMode x s == .rdn) (elemValue x.et 0 c) (fp32.decode (a.toNat % 2 ^ 32))))

/-- The destination type of `bxf.conv`. -/
def bxfTarget (x : Ext) : Fmt := Fmt.ofCode (x.imm.extractLsb' 8 4)

/-- bxf.conv (R347). -/
def execBxfConv (x : Ext) (s : State) : Result :=
  .next (s.transform x false (convTypes x.et (bxfTarget x)) 1 fun _ s cs => cs.map fun c =>
    convert (bxfTarget x) (bxfMode x s) false (bxfSat x) (elemValue x.et 0 c))

/-- Element i of a range after the transpose of each of its blocks of 32 by 32. -/
def transposed (cs : List Nat) (i : Nat) : Nat := cs.getD (i / 1024 * 1024 + i % 32 * 32 + i % 1024 / 32) 0

/-- bxf.trans (R347). -/
def execBxfTrans (x : Ext) (s : State) : Result :=
  .next (s.transform x false (wholeType x.et) (128 * elemStorage x.et) fun _ _ cs =>
    (List.range cs.length).map fun i => ⟨transposed cs i, 0⟩)

end Sys2Proof.Machine
end

