-- ==== Sys2Proof/Machine/Control.lean ====
section
/-! DEFINITION. Control and system instructions: yield points, the end of an activation, the software trap and the
return from an upcall, workspaces, instruction fetch, control registers and the counter snapshot (R21-R26, R125-R138,
R255-R257, R357, R358). -/

namespace Sys2Proof.Machine

/-! ### Yield points and the end (R131-R133) -/

/-- yield (R131). -/
def execYield (s : State) : Result := .next (s.issue {} [] .drain fun s => .ok (s.yieldPoint.advance 4))

/-- The wait that a context waits in is kept beside it. -/
def State.waitsFor (s : State) (deadline : Word) (d : SOpd) : State :=
  State.setPar s.waits { s.waits.slot.par with waiting := some (deadline, d) }

/-- A wait that ends, with its result and what it leaves in the latch. -/
def State.endWait (s : State) (d : SOpd) (x : Word) (latch : Bool) : Act State := do
  let s ← (State.setPar s.yieldPoint { s.yieldPoint.slot.par with wake := latch, waiting := none, timedOut := false, woke := false }).writeS d x
  .ok (s.advance 4)

/-- wait (R132): ended by its deadline or by a wake it completes, and keeps a wake that was posted since in the latch; one that finds
the latch set clears it; a due alarm of the wake form has posted its own wake (R405). -/
def execWait (d a : SOpd) (s : State) : Result :=
  .next (s.issue (scalarChecks [a] [d]) [d, a] .drain fun s => do
    let (x, t) ← s.readS a
    let t : State := { t with slot := t.slot.rung t.timeBase t.cycle }
    let p := t.slot.par
    if p.timedOut then t.endWait d 0 p.wake
    else if p.woke then t.endWait d 1 p.wake
    else if p.wake then t.endWait d 1 false
    else if x.toNat ≤ t.timeBase then t.endWait d 0 false
    else .error (.wait (s.waitsFor x d)))

/-- end (R133, R188). -/
def execEndAct (s : State) : Result := .next (s.issue {} [] .drain fun s => .ok s.endActivation)

/-! ### Upcalls (R134, R135, R361) -/

/-- trap (R134): the trap lies after the instruction. -/
def execTrap (_code : BitVec 15) (s : State) : Result :=
  .next (s.issue {} [] .drain fun s =>
    let src := s.trapSource
    let s := s.advance 4
    .ok (s.takeTrap { cause := 0x0600 } src s.slot.here (some s.slot.here)))

/-- The valid page-fault slot of the current workspace, when the record's cause is a page fault (R361). -/
def State.faultSlot (s : State) : Option (Fin 16) :=
  if s.wsWord 0x900 != 0x0B00 then none
  else (List.finRange 16).find? fun i => (s.core.pfe[i]).getLsbD 63 && field s.core.pfe[i] 0 7 == s.slot.wp.toNat / 4096

/-- The rest of `upret` once any page-fault slot is dealt with (R38). -/
def State.returns (s : State) : State :=
  match s.upcallReturn with
  | some t => t
  | none => s.trapNow { cause := 0x0106 }

/-- upret (R38, R361). -/
def execUpret (s : State) : Result :=
  .next (s.issue {} [] .drain fun s =>
    if !up s.slot.status then trapOf 0x0107
    else do
      let s ← s.checkWs 0x900 0xB8
      let s ← s.checkSaved false (s.wsWord 0x948) (s.wsWord 0x950) (s.wsWord 0x958)
      match s.faultSlot with
      | none => .ok s.returns
      | some i =>
        let e := s.core.pfe[i]
        if !e.getLsbD 62 then waitHere s
        else
          let s := { s with core := { s.core with pfe := s.core.pfe.set i (setBit e 63 false) } }
          .ok (s.setPar { s.slot.par with refused := if e.getLsbD 61 then some (s.wsWord 0x928, s.wsWord 0x930) else none }).returns)

/-! ### Workspaces and fetches (R136, R137) -/

/-- Whether a workspace is bound to another slot of the focused core. -/
def State.boundElsewhere (s : State) (wp : Word) : Bool :=
  (List.range 16).any fun k => k != s.slotId && (s.slotAt s.coreId k).st != .unbound && (s.slotAt s.coreId k).wp == wp

/-- The outgoing context saved as it stands, its q0 and q1 entries discarded, and the workspace at WP switched in. -/
def State.switchTo (s : State) (wp : Word) : State :=
  let x := s.slot
  let t := State.saveContext (State.count { s with slot := x.resumeAt x.here } 11 (x.q0.length + x.q1.length)) none
  State.switchIn { t with slot := { t.slot with wp := wp } }

/-- wpx (R136). It waits for the vector stream, as a drained instruction does: DESIGN CHOICE (log 38), where the stream is blocked on
an empty q0 or q1 the switch does not stop at the blocked instance, as R40 would let it, and the stream deadlock of R31 and R33 is
taken. -/
def execWpx (a : SOpd) (s : State) : Result :=
  .next (s.issue (scalarChecks [a] []) [a] .drain fun s => do
    let (x, s) ← s.readS a
    require (x.toNat % 4096 == 0 && x.toNat ≤ 0x5F000) 0x0500 x
    require (!s.boundElsewhere x) 0x0500 x
    .ok ((s.advance 4).switchTo x))

/-- ifence (R137). -/
def execIfence (s : State) : Result :=
  .next (s.issue {} [] .drain fun s => .ok ((s.fetchSees s.self s.selfFetch).advance 4))

/-! ### Control registers (R21-R26, R125) -/

/-- QSTAT (R24). -/
def Slot.qstat (x : Slot) : Word :=
  BitVec.ofNat 64 (x.q0.length + x.q1.length * 2 ^ 4 + x.q2.length * 2 ^ 8 + x.q3.length * 2 ^ 12
    + (if x.seq.items.isEmpty && x.seq.opened.isNone then 2 ^ 16 else 0))

/-- CLOFS (R261). -/
def State.clofs (s : State) : Word :=
  match s.band with
  | some b => BitVec.ofNat 64 (b.y0 % 4 * 4 + b.x0 % 4)
  | none => 0

/-- Whether a control register number is assigned (R21, R255, R261, R265, R357, R358, R377, R409). -/
def crAssigned (cr : Nat) : Bool :=
  cr < 4 || (0x010 ≤ cr && cr < 0x020) || (0x100 ≤ cr && cr < 0x148) || (0x150 ≤ cr && cr < 0x160)

/-- What `mfcr` reads. -/
def State.readCr (s : State) (cr : Nat) : Word :=
  if cr = 0 then s.slot.status &&& statusFields
  else if cr = 1 then s.slot.wp
  else if cr = 2 then s.slot.qstat
  else if cr = 3 then s.core.wdlim &&& 0x3F
  else if cr < 0x020 then ((s.core.evc.toList).getD (cr - 0x010) 0).setWidth 64
  else if cr < 0x140 then s.tteValue s.coreId (cr - 0x100)
  else if cr < 0x144 then (s.core.rgn.toList).getD (cr - 0x140) 0
  else if cr = 0x144 then s.clofs
  else if cr = 0x145 then s.core.pfvec
  else if cr = 0x146 then s.core.aspace
  else if cr = 0x147 then s.core.irqwin
  else (s.core.pfe.toList).getD (cr - 0x150) 0

/-- mfcr (R125). -/
def execMfcr (d : SOpd) (cr : BitVec 12) (s : State) : Result :=
  .next (s.issue (scalarChecks [] [d]) [d] .drain fun s => do
    require (crAssigned cr.toNat) 0x0106
    let s ← s.writeS d (s.readCr cr.toNat)
    .ok (s.advance 4))

/-- A move to STATUS (R23). -/
def State.moveStatus (s : State) (x : Word) : Act State :=
  if rmReserved (rmField x) then trapOf 0x0106
  else .ok { s with slot := { s.slot with status := statusMoved s.slot.status x } }

/-- A move to an event counter, with the events of that cycle added after it (R26, R126). -/
def State.moveCounter (s : State) (n : Nat) (x : Word) (late : Nat) : State :=
  if h : n < 16 then { s with core := { s.core with evc := s.core.evc.set n (satAdd (x.setWidth 32) late) h } } else s

/-- A move to TTEn (R257): who owns it, which changes are accepted, and the wait for uses of the tile. -/
def State.moveTte (s : State) (n : Nat) (x : Word) : Act State := do
  require (s.ownsTile s.coreId s.slot.tag n) 0x0901
  let e := s.tteValue s.coreId n
  let moved := tteLen x != tteLen e || tteOff x != tteOff e
  if tteWin e then
    require (!moved && tteSt x == tteSt e) 0x0106
    .ok s
  else if moved then
    require (tteSt e == 0 && !tteFo e && tteSt x == 0 && tteOff x + tteLen x ≤ Config.scratchpadBytes && tteLen x % 128 == 0
      && tteOff x % 128 == 0) 0x0106
    .ok (s.setTte s.coreId n (setField (setField e 24 19 (tteLen x)) 0 19 (tteOff x)))
  else if tteSt x = tteSt e then .ok s
  else
    require ((tteSt e == 0 && tteSt x == 2 && !tteFo e) || (tteSt e == 2 && tteSt x == 0)) 0x0106
    if s.tileNamed (s.coreId, n) 0 then blockOn .other
    else .ok (s.setTte s.coreId n (setField e 62 2 (tteSt x)))

/-- A write of 1 to V of a page-fault slot discards its fault (R358). -/
def State.movePfe (s : State) (n : Nat) (x : Word) : State :=
  if h : n < 16 then
    if x.getLsbD 63 then { s with core := { s.core with pfe := s.core.pfe.set n (setBit s.core.pfe[n] 63 false) h } } else s
  else s

/-- What `mtcr` writes, under the access codes of R5. -/
def State.writeCr (s : State) (cr : Nat) (x : Word) (late : Nat) : Act State :=
  if cr = 0 then s.moveStatus x
  else if cr < 4 then .ok s
  else if cr < 0x020 then .ok (s.moveCounter (cr - 0x010) x late)
  else if cr < 0x140 then s.moveTte (cr - 0x100) x
  else if cr = 0x145 then .ok { s with core := { s.core with pfvec := x &&& 0x00FFFFFFFFFFFFFC } }
  else if cr < 0x148 then .ok s
  else .ok (s.movePfe (cr - 0x150) x)

/-- A move to a control register. -/
def State.mtcr (s : State) (cr : Nat) (a : SOpd) (late : Nat) : State :=
  s.issue (scalarChecks [a] []) [a] .drain fun s => do
    require (crAssigned cr) 0x0106
    let (x, s) ← s.readS a
    let s ← s.writeCr cr x late
    .ok (s.advance 4)

/-- mtcr (R125). -/
def execMtcr (cr : BitVec 12) (a : SOpd) (s : State) : Result := .next (s.mtcr cr.toNat a 0)

/-- The move to STATUS (R23). -/
def execStatusWrite (a : SOpd) (s : State) : Result := .next (s.mtcr 0 a 0)

/-- The move to an event counter, with the events of its cycle (R126). -/
def execEventCounterWrite (n : Fin 16) (a : SOpd) (late : BitVec 32) (s : State) : Result :=
  .next (s.mtcr (0x010 + n.val) a late.toNat)

/-- The move to a tile table entry (R257). -/
def execTileTableWrite (n : Fin 64) (a : SOpd) (s : State) : Result := .next (s.mtcr (0x100 + n.val) a 0)

/-- The move to a page-fault slot (R358). -/
def execPageFaultSlotWrite (n : Fin 16) (a : SOpd) (s : State) : Result := .next (s.mtcr (0x150 + n.val) a 0)

/-! ### The counter snapshot (R138) -/

/-- The 64 bytes of a snapshot. -/
def snapshotBytes (e : Vector (BitVec 32) 16) : List Byte := e.toList.flatMap fun x => toBytes 4 x.toNat

/-- evsnap, which may clear the counters. -/
def State.snapshot (s : State) (a : SOpd) (clear : Bool) : State :=
  s.issue (scalarChecks [a] []) [a] .drain fun s => do
    let (x, s) ← s.readS a
    require (x.toNat % 64 == 0) 0x0200 x
    let s ← s.storeVa x (snapshotBytes s.core.evc) none
    let s := if clear then { s with core := { s.core with evc := Vector.replicate 16 0 } } else s
    .ok (s.advance 4)

/-- evsnap (R138). -/
def execEvsnap (a : SOpd) (s : State) : Result := .next (s.snapshot a false)

/-- evsnap with clear (R138). -/
def execEvsnapClear (a : SOpd) (s : State) : Result := .next (s.snapshot a true)

/-! ### Words that are no instruction (R62) -/

/-- An undefined encoding traps. -/
def execUndefinedEncoding (s : State) : Result := .next (s.scalarTrap { cause := 0x0100 })

end Sys2Proof.Machine
end

