-- ==== Sys2Proof/Machine/Homes.lean ====
section
/-! DEFINITION. Accesses from the control dies at the page homes: the application cores, the endpoints and the stagehands (R281,
R384-R387, R395, R415, R416), and the requests that a home has queued. -/

namespace Sys2Proof.Machine

/-! ### Reaching memory (R385, R387, R395) -/

/-- The stretches of n bytes at an address that lie in one 1 KiB page each. -/
def stretchesOf (addr n : Nat) : List (Nat × Nat) :=
  (List.range ((addr % 1024 + n + 1023) / 1024)).map fun i =>
    let first := max addr ((addr / 1024 + i) * 1024)
    (first, min (addr + n) ((addr / 1024 + i + 1) * 1024) - first)

/-- How n bytes at a physical address are reached by an agent at a control die (R385, R387, R395). -/
inductive DieReach where
  /-- they are not memory: nothing is done -/
  | no
  /-- traffic waits -/
  | waits
  /-- no route is left -/
  | lost
  /-- each stretch by itself: a page home queues one, or its page has left the frame -/
  | apart
  | yes
  deriving DecidableEq, Repr

/-- How n bytes of memory space are reached by a control die's agent. -/
def State.dieReach (s : State) (c : Agent) (addr n : Nat) : DieReach :=
  if n = 0 || addr + n > spBase || isIo addr || isIo (addr + n - 1) then .no
  else
    let ks := stretchesOf addr n
    let routes := ks.map fun k => s.routeTo c.pkg 8 (s.forwarded k.1)
    if routes.contains .none_ then .lost
    else if routes.contains .waits then .waits
    else if ks.any fun k => s.forwarded k.1 != k.1 || s.homeQueues k.1 (.read c k.1 k.2 0) then .apart
    else .yes

/-- An access stretch by stretch: each at the frame that its page has now, performed or put into the queue of its home. A stretch
is given by its address, its place in the access and its length. -/
def State.dieEach (s : State) (c : Agent) (addr n : Nat) (req : Nat → Nat → Nat → PageReq) (act : State → Nat → Nat → Nat → State) : State :=
  (stretchesOf addr n).foldl (fun s k =>
    let key := s.forwarded k.1
    if s.homeQueues key (.read c key k.2 0) then s.queueRequest key (req key (k.1 - addr) k.2) else act s key (k.1 - addr) k.2) s

/-! ### The order among the application cores (R281) -/

/-- Where an application core stands. -/
def State.orderOf (s : State) (pkg hart : Nat) : HartOrder :=
  (s.hartOrder.find? fun o => o.pkg == pkg && o.hart == hart).getD { pkg := pkg, hart := hart, floor := 0, reads := 0, writes := 0 }

/-- Moving an application core in the order. -/
def State.setOrder (s : State) (o : HartOrder) : State :=
  { s with hartOrder := o :: s.hartOrder.filter fun q => !(q.pkg == o.pkg && q.hart == o.hart) }

/-- An application core's load has its place before write t. -/
def State.readAt (s : State) (pkg hart t : Nat) : State := 
  let o := s.orderOf pkg hart
  s.setOrder { o with reads := max o.reads t, loads := o.loads ++ [t] }

/-- An application core's store has its place now. -/
def State.wrote (s : State) : Agent → State
  | .hart p h => let o := s.orderOf p h; s.setOrder { o with writes := s.seq }
  | _ => s

/-- Whether an agent is an application core. -/
def Agent.isHart : Agent → Bool
  | .hart _ _ => true
  | _ => false

/-- An application core's later loads come after its atomic operation that acquires, performed now (R281: RVWMO's `aq`). -/
def State.acquired (s : State) (c : Agent) (aq : Bool) : State :=
  match c, aq with
  | .hart p h, true => let o := s.orderOf p h; s.setOrder { o with floor := max o.floor s.seq }
  | _, _ => s

/-- The place of the latest of some loads of an application core, on which a later one depends. -/
def State.dependsOn (s : State) (pkg hart : Nat) (deps : List Nat) : Nat :=
  let o := s.orderOf pkg hart
  deps.foldl (fun t i => max t (o.loads.getD i 0)) 0

/-- The stores of application cores that stand before the place before which an application core's load is not count for it: by its
fences and acquiring atomics, and by what its address depends on. -/
def State.hartBound (s : State) (pkg hart key n dep : Nat) : State :=
  let f := max (s.orderOf pkg hart).floor dep
  { s with hist := s.hist.map fun r => if r.touches key n && r.by_.isHart && r.seq < f then r.see (.hart pkg hart) else r }

/-! ### What is performed at a page home -/

/-- A machine check of an agent at a control die. -/
def State.dieCheck (s : State) (c : Agent) (t : Trap) : State := s.reportCheck 0 (c.pkg * 4608) t

/-- What an application core has read, kept. -/
def State.hartReadsOf (s : State) (pkg hart addr : Nat) (data : List Byte) : State :=
  { s with hartReads := (pkg, hart, addr, data) :: s.hartReads }

/-- A write by a control die's agent. -/
def State.dieStores (s : State) (c : Agent) (addr : Nat) (data : List Byte) (alone : Option Scope) : State :=
  match s.storeKey c addr data alone with
  | .ok t => t.wrote c
  | .error (.trap t) => s.dieCheck c t
  | .error _ => s

/-- A read by a control die's agent: of an application core a plain load, which is not before a place, kept; of an endpoint what the
home holds. -/
def State.dieLoads (s : State) (c : Agent) (addr n dep : Nat) : State :=
  match s.checkRead c addr n with
  | .ok s =>
    match c with
    | .hart p h => let r := (s.hartBound p h addr n dep).loadPoint c addr n; (r.2.2.readAt p h r.2.1).hartReadsOf p h addr r.1
    | _ => (s.loadHome c addr n).2
  | .error (.trap t) => s.dieCheck c t
  | .error _ => s

/-- What an atomic memory operation on n bytes writes for an old value; none where it writes nothing. -/
def HartOp.apply (op : HartOp) (n : Nat) (old : Word) : Option Word :=
  let low (x : Word) : Word := BitVec.ofNat 64 (x.toNat % 2 ^ (8 * n))
  match op with
  | .swap x => some x
  | .add x => some (old + x)
  | .and x => some (old &&& x)
  | .or x => some (old ||| x)
  | .xor x => some (old ^^^ x)
  | .min x => some (signedMin n old x)
  | .max x => some (signedMax n old x)
  | .minu x => some (if old.ule (low x) then old else x)
  | .maxu x => some (if (low x).ule old then old else x)
  | .cas e x => if old = low e then some x else none

/-- An atomic memory operation of an application core: an atomic at `sys`, which reads the latest write and writes next to it in
coherence order (R276, R281). -/
def State.dieUpdates (s : State) (c : Agent) (addr n : Nat) (op : HartOp) (aq : Bool) : State :=
  match c, s.checkRead c addr n with
  | .hart p h, .ok t =>
    let r := t.loadHome c addr n
    let kept := (r.2.readAt p h r.2.seq).hartReadsOf p h addr r.1
    match op.apply n (wordOf r.1) with
    | none => kept.acquired c aq
    | some x =>
      match kept.storeKey c addr (toBytes n x.toNat) (some .sys) with
      | .ok u => (u.wrote c).acquired c aq
      | .error (.trap t) => s.dieCheck c t
      | .error _ => s
  | _, .error (.trap t) => s.dieCheck c t
  | _, _ => s

/-- A write by a control die's agent to memory space: at the page home, or into its queue (R385, R387, R395). -/
def State.dieWrite (s : State) (c : Agent) (addr : Nat) (data : List Byte) (alone : Option Scope) : State :=
  match s.dieReach c addr data.length with
  | .no => s
  | .waits => s
  | .lost => s.dieCheck c (s.undelivered c addr)
  | .apart =>
    let part (off n : Nat) : List Byte := (data.drop off).take n
    s.dieEach c addr data.length (fun key off n => .write c key (part off n) alone) fun s key off n => s.dieStores c key (part off n) alone
  | .yes => s.dieStores c addr data alone

/-- A read by a control die's agent of memory space. -/
def State.dieRead (s : State) (c : Agent) (addr n dep : Nat) : State :=
  match s.dieReach c addr n with
  | .no => s
  | .waits => s
  | .lost => s.dieCheck c (s.undelivered c addr)
  | .apart => s.dieEach c addr n (fun key _ n => .read c key n dep) fun s key _ n => s.dieLoads c key n dep
  | .yes => s.dieLoads c addr n dep

/-! ### Queued requests (R385, R386) -/

/-- A notify that had waited at a page home (R221). -/
def State.notified (s : State) (p hq : Nat) (v : Word) : State :=
  let c := s.ctlAt p
  match (c.queues.find? fun q => q.1 == hq).map (·.2) with
  | none => s
  | some q =>
    if q.mapped then s.setCtl p { c with queues := assocSet hq { q with seen := max q.seen v.toNat } c.queues }
    else s.shadows p q.desc v

/-- A request that a page home holds, performed there. -/
def State.performQueued (s : State) : PageReq → State
  | .write c key data alone => s.dieStores c key data alone
  | .read c key n dep => s.dieLoads c key n dep
  | .update c key n op aq => s.dieUpdates c key n op aq
  | .notify p hq v => s.notified p hq v
  | _ => s

/-- Whether a page home holds a request whole, so that its agent does not make it again. -/
def PageReq.held : PageReq → Bool
  | .write _ _ _ _ | .read _ _ _ _ | .update _ _ _ _ _ | .notify _ _ _ => true
  | _ => false

/-- The requests held that no other stands before, in order, and what remains of the queue. -/
def State.leadingHeld (s : State) : List PageReq → List PageReq × List PageReq
  | [] => ([], [])
  | q :: qs =>
    if q.held then (let r := s.leadingHeld qs; (q :: r.1, r.2))
    else if s.stillQueued q then ([], q :: qs)
    else s.leadingHeld qs

/-- The page homes serve the requests held at the heads of their queues, where the page does not move. -/
def State.serve (s : State) : State :=
  s.pages.foldl (fun s p =>
    if p.moving || p.queue.isEmpty then s
    else
      let r := s.leadingHeld p.queue
      let s := { s with pages := s.pages.map fun q => if q.frame = p.frame then { q with queue := r.2 } else q }
      r.1.foldl State.performQueued s) s

/-- Whether an application core has a request in a page home's queue. -/
def State.hartWaits (s : State) (c : Agent) : Bool :=
  s.pages.any fun p => p.queue.any fun q => match q with
    | .write a _ _ _ => a == c
    | .read a _ _ _ => a == c
    | .update a _ _ _ _ => a == c
    | _ => false

/-- Whether an acquiring atomic operation of an application core waits in a page home's queue: its later accesses come after it. -/
def State.hartHeld (s : State) (c : Agent) : Bool :=
  s.pages.any fun p => p.queue.any fun q => match q with
    | .update a _ _ _ aq => aq && a == c
    | _ => false

end Sys2Proof.Machine
end

