-- ==== Sys2Proof/Machine/Heap.lean ====
section
/-! DEFINITION. Traffic between cores and the life of a kernel from its first message to its end: arrivals at the
mailbox heap, pops, spawns, key updates, rounds, stops, the final gather and the termination record (R190-R207,
R225, R256, R282, R365). -/

namespace Sys2Proof.Machine

/-! ### Kernels on cores -/

/-- A kernel that has not ended. -/
def State.live (s : State) (kid : Nat) : Option Kernel := (s.kernelAt kid).bind fun k => if k.ended.isNone then some k else none

/-- The cores of a kernel's grid in ascending virtual core index. -/
def Kernel.cores (k : Kernel) : List Nat := (List.range k.grid).filterMap k.coreOf

/-- Whether a context holds an unfinished activation of a kernel. -/
def Slot.runsFor (kid : Nat) (x : Slot) : Bool :=
  x.par.kid == kid && (x.st == .active || x.st == .waiting || x.st == .stopped)

/-- Whether an activation of a kernel runs on a core. -/
def State.runsOn (s : State) (kid core : Nat) : Bool := (s.contextsOf core).any (Sys2Proof.Machine.Slot.runsFor kid)

/-- Whether a message of a kernel's launch (R72) is on its way to a core. -/
def State.launching (s : State) (kid core : Nat) : Bool :=
  s.flight.any fun f => match f with | .message k _ 0 d _ => k == kid && d == core | _ => false

/-- Whether a core is quiet for a kernel: no activation of it runs there and none of its messages is present (R200). A core to which the
message of its launch is still on its way is not quiet: DEDUCED (log 31) from R249, by which no round of total 0 stops a kernel before
its seeds have been sent. -/
def State.quiet (s : State) (k : Kernel) (core : Nat) : Bool :=
  !s.runsOn k.kid core && ((s.coreAt core).ofTag k.tag).isEmpty && !s.launching k.kid core

/-- Changing every core that satisfies a test. -/
def State.mapCores (s : State) (p : Nat → Bool) (f : Nat → Core → Core) : State :=
  { s with
    core := if p s.coreId then f s.coreId s.core else s.core
    cores := s.cores.map fun c => if p c.1 then (c.1, f c.1 c.2) else c }

/-! ### Traffic in flight (R192, R228) -/

/-- The kernel of what travels. -/
def Flight.kid : Flight → Nat
  | .message k _ _ _ _ => k
  | .gain k _ _ _ _ _ => k
  | .offer k _ _ _ _ _ _ _ => k
  | .answer k _ _ _ _ => k
  | .keyUpdate k _ _ _ _ _ _ _ => k
  | .stop k _ => k

/-- The sender and the target whose order R228 keeps. -/
def Flight.lane : Flight → Option (Nat × Nat × Nat × Nat)
  | .message k c i d _ => some (k, c, i, d)
  | .gain k c i d _ _ => some (k, c, i, d)
  | .offer k c i d _ _ _ _ => some (k, c, i, d)
  | _ => none

/-- Whether a kernel runs on one virtual core with one context: its run is deterministic (R204). -/
def Kernel.single (k : Kernel) : Bool := k.grid == 1 && k.ctx == 1

/-- Whether what travels of a kernel keeps one order (R204). -/
def State.inOrder (s : State) (kid : Nat) : Bool := (s.kernelAt kid).any (·.single)

/-- The way of something that travels: the core at which its loss is reported, the node of the package that it leaves, and the core to
which it goes. A stop comes from the tree, whose package end is on the control die (`00_scope.md`; log 49). -/
def Flight.way : Flight → Nat × Nat × Nat
  | .message _ c _ d _ => (c, dieOf c % 8, d)
  | .gain _ c _ d _ _ => (c, dieOf c % 8, d)
  | .offer _ c _ d _ _ _ _ => (c, dieOf c % 8, d)
  | .answer _ c d _ _ => (c, dieOf c % 8, d)
  | .keyUpdate _ c d _ _ _ _ _ => (c, dieOf c % 8, d)
  | .stop _ d => (d, 8, d)

/-- What the routes of a package let something that travels do (R395). -/
def State.flightUse (s : State) (f : Flight) : LinkUse := s.innerUse (pkgOf f.way.1) f.way.2.1 (dieOf f.way.2.2 % 8)

/-- Whether what travels at a place is the next to arrive: nothing of its lane is ahead of it (R228), nor, of a kernel of one core
and one context, anything at all (R204). -/
def State.inTurn (s : State) (i : Nat) : Bool :=
  match s.flight[i]? with
  | none => false
  | some f =>
    if s.inOrder f.kid then !(s.flight.take i).any fun g => g.kid == f.kid
    else f.lane.isNone || !(s.flight.take i).any fun g => g.lane == f.lane

/-- Whether it may arrive: it is the next, and no link on every route retrains or is down (R395). -/
def State.mayArrive (s : State) (i : Nat) : Bool := s.inTurn i && (s.flight[i]?).any fun f => s.flightUse f == .passes

/-- The state with what travels at a place landed. -/
def State.landed (s : State) (i : Nat) : State := { s with flight := s.flight.eraseIdx i }

/-- What travels at a place arrives, with this result, if it may. Where no route is left it is lost, a machine check of its kernel
with no address (R353, R367, R395). -/
def State.arriving (s : State) (i : Nat) (r : State) : State :=
  if s.mayArrive i then r
  else
    match s.flight[i]? with
    | some f =>
      if s.inTurn i && s.flightUse f == .none_ then
        (s.landed i).reportCheck f.kid f.way.1 { cause := 0x0E06, array := some (s.deadPort (pkgOf f.way.1) f.way.2.1) }
      else s
    | none => s

/-- Messages of a kernel removed at a virtual core, in this order (R197, R201). -/
def Kernel.removes (k : Kernel) (v : Nat) (ms : List Message) : Kernel := { k with removed := k.removed ++ ms.map fun m => (v, m) }

/-- Counting an update or a message in DROP, which saturates (R202). -/
def Kernel.drops (k : Kernel) : Kernel := { k with drop := min (k.drop + 1) (2 ^ 32 - 1) }

/-- The kernel that owns a message of a core's heap. -/
def State.ownerOf (s : State) (core : Nat) (m : HeapMsg) : Nat :=
  ((s.kernelOfTag (pkgOf core) (hdrTag m.msg.header)).map (·.kid)).getD 0

/-- An access of a core's overflow region for a message: whether it meets no uncorrectable error, which ends it and is reported for the
kernel that owns the message (R266, R367). -/
def State.regionAct (s : State) (core : Nat) (m : HeapMsg) (act : Agent → State → Act State) : Bool × State :=
  match act (.accumulate (s.ownerOf core m) core) s with
  | .ok t => (true, t)
  | .error (.trap t) => (false, s.reportCheck (s.ownerOf core m) core t)
  | .error _ => (true, s)

/-- A core reads a message of its heap, of which one in the overflow region may hold an error. -/
def State.regionRead (s : State) (core : Nat) (m : HeapMsg) : Bool × State :=
  match m.spoilt with
  | none => if m.overflow then s.regionAct core m fun c s => s.checkRead c (regionKey core m.stamp) 64 else (true, s)
  | some (a, addr, false) => (true, s.logError a 4 addr core 15 0)
  | some (a, addr, true) => (false, s.reportCheck (s.ownerOf core m) core { cause := machineCheckCause a.kind, addr := addr, array := some a })

/-- A core writes a message to its overflow region, with injection (R370). -/
def State.regionWrite (s : State) (core : Nat) (m : HeapMsg) : Bool × State :=
  s.regionAct core m fun c s => do
    let s ← s.checkWrite c (regionKey core m.stamp) 64
    .ok (s.inject (regionKey core m.stamp) 64)

/-- The message of a stamp has been put into a core's heap, or changed there: in the overflow region that is a write. -/
def State.spilled (s : State) (core stamp : Nat) : State :=
  match (s.coreAt core).heap.find? fun m => m.stamp == stamp && m.overflow with
  | some m => (s.regionWrite core m).2
  | none => s

/-- Messages of a core read as they are removed: those that hold no uncorrectable error (R367). -/
def State.drained (s : State) (core : Nat) : List HeapMsg → List Message × State
  | [] => ([], s)
  | m :: ms =>
    let r := s.regionRead core m
    let q := r.2.drained core ms
    (if r.1 then m.msg :: q.1 else q.1, q.2)

/-- A message of a kernel reaches a core: present, or removed where the kernel's stop has been (R197). -/
def State.messageLands (s : State) (k : Kernel) (core : Nat) (m : Message) : State :=
  let c := s.coreAt core
  if (c.of k.kid).stopSeen then s.setKernel (k.removes ((k.vcoreOf core).getD 0) [m])
  else (s.setCore core (c.insert s.timeBase m)).spilled core c.stamp

/-- A message arrives (R197). -/
def execMessageArrival (i : Nat) (s : State) : Result :=
  .next (match s.flight[i]? with
    | some (.message kid _ _ dst m) =>
      s.arriving i (match s.live kid with
        | none => s.landed i
        | some k => if (s.coreAt dst).hasRoom || ((s.coreAt dst).of kid).stopSeen then (s.landed i).messageLands k dst m else s)
    | _ => s)

/-- The messages of a kernel's tag on a core in heap order (R193). -/
def insertHeap (m : HeapMsg) : List HeapMsg → List HeapMsg
  | [] => [m]
  | n :: ns => if m.before n then m :: n :: ns else n :: insertHeap m ns

/-- A list of messages in heap order. -/
def heapOrder (ms : List HeapMsg) : List HeapMsg := ms.foldr insertHeap []

/-- The core without a kernel's messages. -/
def Core.without (c : Core) (tag : Nat) : Core := { c with heap := c.heap.filter fun m => hdrTag m.msg.header != tag }

/-- Whether a gain update would make a message of its own. -/
def Core.makesMessage (c : Core) (k : Kernel) (key : Nat) : Bool :=
  k.dflt.isSome && !(c.ofTag k.tag).any fun m => hdrKey m.msg.header == key

/-- The message into which a gain update merges (R198). -/
def Core.gainTarget (c : Core) (tag key : Nat) : Option HeapMsg := firstOf ((c.ofTag tag).filter fun m => hdrKey m.msg.header == key)

/-- A gain update reaches a core (R198): one that merges into a message of the overflow region reads it, and ends there where that meets
an uncorrectable error (R367), and writes it; where the kernel's stop has been, the message that it makes is removed. -/
def State.gainLands (s : State) (k : Kernel) (core key delta : Nat) : State :=
  let c := s.coreAt core
  let m := c.gainTarget k.tag key
  let r := match m with | some m => s.regionRead core m | none => (true, s)
  if !r.1 then r.2 else
  let s := r.2
  let (lost, c') := c.gainUpdate s.timeBase k.tag key delta k.dflt
  let k := if lost then k.drops else k
  if (c.of k.kid).stopSeen then
    (s.setKernel (k.removes ((k.vcoreOf core).getD 0) ((c'.ofTag k.tag).map (·.msg)))).setCore core (c'.without k.tag)
  else ((s.setKernel k).setCore core c').spilled core ((m.map (·.stamp)).getD c.stamp)

/-- A gain update arrives (R198). -/
def execGainUpdateArrival (i : Nat) (s : State) : Result :=
  .next (match s.flight[i]? with
    | some (.gain kid _ _ dst key delta) =>
      s.arriving i (match s.live kid with
        | none => s.landed i
        | some k =>
          let c := s.coreAt dst
          if c.makesMessage k key.toNat && !c.hasRoom && !(c.of kid).stopSeen then s
          else (s.landed i).gainLands k dst key.toNat delta.toNat)
    | _ => s)

/-- A core's message of a stamp, moved into the overflow region or out of it. -/
def Core.moves (c : Core) (stamp : Nat) (out : Bool) : Core :=
  { c with heap := c.heap.map fun m => if m.stamp = stamp then { m with overflow := out, spoilt := none } else m }

/-- Messages move between the heap and its overflow region (R196); a spill or a refill that finds an uncorrectable error ends there
(R367). -/
def execOverflowRegionMove (core stamp : Nat) (out : Bool) (s : State) : Result :=
  let c := s.coreAt core
  let n := (c.heap.filter fun m => m.overflow == out).length
  .next (
    match c.heap.find? fun m => m.stamp == stamp && m.overflow != out with
    | none => s
    | some m =>
      if n < (if out then Config.heapOverflow else Config.heapOnChip) then
        let r := if out then s.regionWrite core m else s.regionRead core m
        if r.1 then r.2.setCore core (c.moves stamp out) else r.2
      else s)

/-- Stored bits of a message in a core's overflow region change (R266). -/
def State.spoil (s : State) (core stamp : Nat) (a : ArrayId) (addr : Word) (fatal : Bool) : State :=
  let c := s.coreAt core
  s.setCore core { c with heap := c.heap.map fun m =>
    if m.stamp = stamp && m.overflow then { m with spoilt := some (a, addr, fatal) } else m }

/-! ### Rounds (R200) -/

/-- Sums of residual pairs (s, c), in order. -/
def sumPairs : Nat × Nat → List (Nat × Nat) → Nat × Nat
  | p, [] => p
  | (s, c), (h, l) :: ps => let t := twosum s h; sumPairs (t.hi, fadd (fadd c t.lo) l) ps

/-- The total of some pairs: (hi, lo). -/
def totalOf (ps : List (Nat × Nat)) : Nat × Nat := let p := sumPairs (0, 0) ps; let t := twosum p.1 p.2; (t.hi, t.lo)

/-- A kernel after a round: its number and its total (R200). -/
def State.gathered (s : State) (k : Kernel) : Kernel :=
  let t := totalOf (k.cores.map fun c => let r := (s.coreAt c).of k.kid; (r.h.toNat, r.l.toNat))
  { k with rounds := k.rounds + 1, hi := BitVec.ofNat 32 t.1, lo := BitVec.ofNat 32 t.2 }

/-- Whether a kernel's total meets its tolerance. -/
def Kernel.meets (k : Kernel) : Bool :=
  let t := fp32.decode k.tol
  !t.isZero && ((fp32.decode k.hi.toNat).add false (fp32.decode k.lo.toNat)).lt t

/-- Whether a round of a kernel is due (R200). -/
def State.roundDue (s : State) (k : Kernel) : Bool :=
  let since (c : Nat) : Bool := let r := (s.coreAt c).of k.kid; r.endedAtRound < r.ended
  k.started && k.runs && k.cores.any since && k.cores.all fun c => since c || s.quiet k c

/-- The cores of a kernel marked with the round. -/
def State.marked (s : State) (k : Kernel) : State :=
  k.cores.foldl (fun s c =>
    let o := s.coreAt c
    let r := o.of k.kid
    s.setCore c (o.putOf { r with endedAtRound := r.ended })) s

/-- What the links let the reports of a kernel's cores do on their way to the tree's package end, on the control die (`00_scope.md`,
R395). -/
def State.gatherUse (s : State) (k : Kernel) : LinkUse :=
  let us := k.cores.map fun c => s.innerUse (pkgOf c) (dieOf c % 8) 8
  if us.contains .none_ then .none_ else if us.contains .waits then .waits else .passes

/-- A gather of a kernel, with this result: it waits while a link retrains, and where no route is left it is a machine check of the
kernel (R395, log 49). -/
def State.gathering (s : State) (k : Kernel) (r : State) : State :=
  match s.gatherUse k with
  | .passes => r
  | .waits => s
  | .none_ => s.reportCheck k.kid ((k.coreOf 0).getD 0) { cause := 0x0E06, array := some (s.deadPort k.pkg 8) }

/-- A round is gathered; one that meets tolerance stops the kernel (R200, R201), which is how the kernel of R249 and R250
comes to END 1. -/
def execRoundGather (kid : Nat) (s : State) : Result :=
  .next (match s.live kid with
    | none => s
    | some k =>
      if !s.roundDue k then s
      else
        let g := s.gathered k
        let t := (s.marked k).setKernel { g with stopping := g.meets, tolMet := g.meets }
        s.gathering k (if g.meets then { t with flight := t.flight ++ k.cores.map fun c => .stop kid c } else t))

/-! ### Pops (R192, R248) -/

/-- Whether a pop waits for the traffic and the round of the activation before it (R204, R248): what makes the run of R250
one run. -/
def State.popWaits (s : State) (k : Kernel) : Bool :=
  k.single && (s.flight.any (fun f => f.kid == k.kid) || s.roundDue k)

/-- The heap pops for an IDLE slot (R192): the message that is first is activated, or removed when its handler is
zero (R191). -/
def execHeapPop (core slot : Nat) (s : State) : Result :=
  .next (
    let x := s.slotAt core slot
    let c := s.coreAt core
    match s.live x.par.kid with
    | none => s
    | some k =>
      if x.st != .idle || (c.of k.kid).stopSeen || s.popWaits k then s
      else
        match firstOf (c.ofTag k.tag) with
        | none => s
        | some m =>
          let r := s.regionRead core m
          if !r.1 then r.2
          else
            let t := r.2.setCore core { c with heap := c.heap.filter fun n => n.stamp != m.stamp }
            let pc := k.handlers.getD (hdrHid m.msg.header) 0
            if pc = 0 then t.setKernel k.drops
            else t.startIn core slot pc m.msg.p.toList m.msg.header (k.levelOf s.timeBase m))

/-! ### Spawns (R205, R233) -/

/-- The IDLE slots of a kernel on a core. -/
def State.idleSlots (s : State) (kid core : Nat) : List Nat :=
  (List.range 16).filter fun n => (s.slotAt core n).st == .idle && (s.slotAt core n).par.kid == kid

/-- A spawn offer reaches a core: one of the IDLE slots takes it, or it is declined (R205, R233). -/
def execSpawnOfferArrival (i : Nat) (s : State) : Result :=
  .next (match s.flight[i]? with
    | some (.offer kid src ident dst pc args header level) =>
      let free := if (s.live kid).isSome && !((s.coreAt dst).of kid).stopSeen then s.idleSlots kid dst else []
      s.arriving i (match free[Config.freeView s.free % free.length]? with
        | some n => ((s.landed i).drew.startIn dst n pc args header level).fly (.answer kid dst src ident true)
        | none => (s.landed i).fly (.answer kid dst src ident false))
    | _ => s)

/-- A context that waits for the answer to its offer has it. -/
def Slot.answered (took : Bool) (x : Slot) : Slot :=
  match x.par.request with
  | .spawn none => { x with par := { x.par with request := .spawn (some took) } }
  | _ => x

/-- The answer to a spawn offer returns (R233). -/
def execSpawnAnswer (i : Nat) (s : State) : Result :=
  .next (match s.flight[i]? with
    | some (.answer _ _ core ident took) => s.arriving i ((s.landed i).mapContext core ident (Sys2Proof.Machine.Slot.answered took))
    | _ => s)

/-! ### Key updates (R207, R235) -/

/-- The bytes of a bin of an operation, and its value after an update (R207). -/
def BinOp.width : BinOp → Nat
  | .fadd => 4
  | _ => 8

def BinOp.apply (op : BinOp) (old v : Word) : Word :=
  match op with
  | .add => old + v
  | .fadd => BitVec.ofNat 64 (Sys2Proof.Machine.fadd (field old 0 32) (field v 0 32))
  | .min => if old.sle v then old else v
  | .max => if v.sle old then old else v
  | .or => old ||| v

/-- The 16 bytes of a key update leave its barrier's count. -/
def State.updateLeaves (s : State) (kid : Nat) (bar : Option Nat) : State :=
  match bar with
  | some b => s.bytesLeave kid b 16
  | none => s

/-- The receive-and-accumulate unit applies an update to a bin, as an atomic at scope `core` (R207). -/
def State.applyUpdate (s : State) (kid core off : Nat) (op : BinOp) (v : Word) (bar : Option Nat) : State :=
  let a : Agent := .accumulate kid core
  let key := spKey core off
  match s.checkRead a key op.width with
  | .error (.trap t) => s.reportCheck kid core t
  | .error _ => s
  | .ok t =>
    let r := t.loadHome a key op.width
    let data := toBytes op.width (op.apply (wordOf r.1) v).toNat
    match r.2.checkWrite a key op.width with
    | .error (.trap t) => s.reportCheck kid core t
    | .error _ => s
    | .ok u => (u.storeRec a key (data.map some) (some .core) (s.attach kid bar)).inject key op.width

/-- A key update arrives (R207, R235). -/
def execKeyUpdateArrival (i : Nat) (s : State) : Result :=
  .next (match s.flight[i]? with
    | some (.keyUpdate kid _ dst bin boff op v bar) =>
      let t := s.landed i
      s.arriving i (match t.live kid with
        | none => t
        | some k =>
          let off := boff + 8 * bin
          (if t.inImage dst off op.width then t.setKernel k.drops else t.applyUpdate kid dst off op v bar).updateLeaves kid bar)
    | _ => s)

/-! ### Stops (R201, R406) -/

/-- A context of a kernel without its alarm. -/
def Slot.unalarmed (kid : Nat) (x : Slot) : Slot := if x.par.kid = kid then { x with par := { x.par with alarm := none } } else x

/-- The stop of a kernel reaches a core: its messages there are removed and its alarms cleared (R201, R406). -/
def State.stopsOn (s : State) (k : Kernel) (core : Nat) : State :=
  let c := s.coreAt core
  let d := s.drained core (heapOrder (c.ofTag k.tag))
  let s := d.2.setKernel (k.removes ((k.vcoreOf core).getD 0) d.1)
  (s.setCore core ((c.without k.tag).putOf { c.of k.kid with stopSeen := true })).mapSlots (· == core)
    (Sys2Proof.Machine.Slot.unalarmed k.kid)

/-- A stop arrives. -/
def execStopArrival (kid core : Nat) (s : State) : Result :=
  .next (match s.flight.findIdx? (· == .stop kid core), s.live kid with
    | some i, some k => s.arriving i ((s.landed i).stopsOn k core)
    | some i, none => s.landed i
    | none, _ => s)

/-! ### The termination record (R202, R203) -/

/-- Inserting a removed message by virtual core index, after its equals. -/
def insertRemoved (m : Nat × Message) : List (Nat × Message) → List (Nat × Message)
  | [] => [m]
  | n :: ns => if m.1 < n.1 then m :: n :: ns else n :: insertRemoved m ns

/-- The removed messages in the order of R202. -/
def Kernel.removedInOrder (k : Kernel) : List (Nat × Message) := k.removed.foldl (fun l m => insertRemoved m l) []

/-- The words of the termination record (R202), whose fields R250 lists for its run. -/
def terminationRecord (k : Kernel) (endCode cause drained now : Nat) : List Word :=
  let gains := k.removedInOrder.map fun m => hdrGain m.2.header
  let sum := totalOf ((gains.filter fun g => !isNan32 g).map fun g => (g, 0))
  let nans := (gains.filter isNan32).length
  [BitVec.ofNat 64 (k.rounds % 2 ^ 32 * 2 ^ 32 + cause * 2 ^ 16 + endCode), k.lo ++ k.hi, BitVec.ofNat 64 gains.length,
   BitVec.ofNat 64 (sum.2 * 2 ^ 32 + sum.1), BitVec.ofNat 64 (k.drop * 2 ^ 32 + min nans (2 ^ 32 - 1)), BitVec.ofNat 64 drained,
   BitVec.ofNat 64 now, 0]

/-- An entry of the drain buffer (R203): the header, P1 to P7, and the virtual core index, as R250 lists two. -/
def drainEntry (m : Nat × Message) : List Byte :=
  bytesOfWords ([m.2.header] ++ m.2.p.toList ++ [BitVec.ofNat 64 m.1]) ++ List.replicate 56 0

/-- The physical address of a byte of a kernel's address space, for the stagehands: outside its regions and in memory
space. -/
def State.kernelKey (s : State) (k : Kernel) (va : Nat) (w : Bool) : Option Nat :=
  if va ≥ Config.windowBase || !k.aspace.getLsbD 0 then none
  else
    match s.walkFrom false va 3 (field k.aspace 12 40 * 4096) with
    | .leaf l => if l.permits (if w then .store else .load) && !isIo (l.phys va) then some (l.phys va) else none
    | _ => none

/-- The same as the stagehands reach it: the reads of the walk may meet an error, and then there is none (R266, R367). -/
def State.stageKey (s : State) (k : Kernel) (va : Nat) (w : Bool) : Option Nat × State :=
  let r := s.stageScan k.pkg k.kid ((s.trailFrom false va 3 (field k.aspace 12 40 * 4096)).map fun a => (a, 8))
  if r.1 then (r.2.kernelKey k va w, r.2) else (none, r.2)

/-- The stagehands write bytes of a kernel's address space, in accesses that end at multiples of 32 bytes (R266); one that has no
translation stays unwritten. -/
def State.stageBytes (s : State) (k : Kernel) (va : Nat) (data : List Byte) : Nat → State
  | 0 => s
  | n + 1 =>
    if data.isEmpty then s
    else
      let m := 32 - va % 32
      let r := s.stageKey k va true
      (match r.1 with
        | some key => r.2.stageStore k.pkg k.kid key (data.take m) none
        | none => r.2).stageBytes k (va + m) (data.drop m) n

/-- The capacity of a drain buffer (R203), and the state after the reads; 0 where it cannot be read. -/
def State.drainCapacity (s : State) (k : Kernel) : Nat × State :=
  let r := s.stageKey k k.drainAt false
  match r.1 with
  | none => (0, r.2)
  | some key =>
    let c := r.2.stageScan k.pkg k.kid [(key, 8)]
    if !c.1 then (0, c.2)
    else
      let v := c.2.loadPlain (.stagehand k.pkg) key 8
      ((wordOf v.1).toNat, v.2)

/-- The drain buffer written, and the number of its entries (R203). -/
def State.drainRemoved (s : State) (k : Kernel) : Nat × State :=
  if k.drainAt = 0 then (0, s)
  else
    let c := s.drainCapacity k
    let es := k.removedInOrder.take c.1
    let s := c.2.stageBytes k (k.drainAt + 8) (toBytes 8 es.length) 2
    (es.length, s.stageBytes k (k.drainAt + 0x40) (es.flatMap drainEntry) (4 * es.length + 1))

/-! ### Launch queues (R214, R215) -/

/-- A word that the stagehands read, as it is now: their firmware reads queue words by atomic operations (R281; log 18). -/
def State.stageWord (s : State) (addr : Nat) : Word := wordOf (Memory.bytes s.mem addr 8)

/-- The stagehands of a package write words, published with all they wrote before. -/
def State.stagePublish (s : State) (p addr : Nat) (ws : List Word) : State :=
  (s.release (.stagehand p) .sys).stageStore p 0 addr (bytesOfWords ws) (some .sys)

/-- m, LEVEL and the number of consumers of a user queue (R214). -/
def State.queueLog (s : State) (d : Nat) : Nat := field (s.stageWord (d + 8)) 0 5
def State.queueLevel (s : State) (d : Nat) : Nat := field (s.stageWord (d + 8)) 8 2
def State.queueConsumers (s : State) (d : Nat) : Nat := field (s.stageWord (d + 8)) 16 3 + 1

/-- The slot of an item (R214), where the ring that the descriptor names now lies (R387). -/
def State.queueSlot (s : State) (d q : Nat) : Nat := s.forwarded ((s.stageWord d).toNat + 256 * (q % 2 ^ s.queueLog d))

/-- The state of an item, as its slot holds it: none when another item's. -/
def State.itemState (s : State) (d q : Nat) : Option Nat :=
  let a := s.queueSlot d q
  if (s.stageWord (a + 0xC0)).toNat = q then some (field (s.stageWord (a + 0xC8)) 0 8) else none

/-- The device's cursor advanced past every item that is done with (R215). -/
def State.cursorFrom (s : State) (d : Nat) : Nat → Nat → Nat
  | q, 0 => q
  | q, n + 1 => match s.itemState d q with
    | some st => if st ≥ 2 then s.cursorFrom d (q + 1) n else q
    | none => q

/-- ALLOW by the formula of R215. -/
def State.allowOf (s : State) (d cur0 : Nat) : Nat :=
  ((List.range (s.queueConsumers d)).map fun i => if i = 0 then cur0 else (s.stageWord (d + 0x40 + 8 * i)).toNat).foldl min cur0
    + 2 ^ s.queueLog d - 1

/-- The stretches of memory that the stagehands read of a user queue: its descriptor, and SEQ and STATE of its slots. -/
def State.queueStretches (s : State) (d : Nat) : List (Nat × Nat) :=
  (d, 128) :: (List.range (2 ^ s.queueLog d)).map fun q => (s.queueSlot d q + 0xC0, 16)

/-- Whether the stagehands of a package may read a user queue's words (R266, R367). -/
def State.queueScan (s : State) (p d : Nat) : Bool × State := s.stageScan p 0 (s.queueStretches d)

/-- CUR0 and ALLOW written afresh (R215). -/
def State.refreshQueue (s : State) (p d : Nat) : State :=
  let r := s.queueScan p d
  if !r.1 then r.2
  else
    let s := r.2
    let cur0 := s.cursorFrom d (s.stageWord (d + 0x40)).toNat (2 ^ s.queueLog d)
    let s := s.stageStore p 0 (d + 0x40) (toBytes 8 cur0) none
    s.stagePublish p (d + 0x18) [BitVec.ofNat 64 (s.allowOf d cur0)]

/-! ### Ends of kernels (R201, R202, R225, R256, R282, R365) -/

/-- The tile table of a core once a kernel of a tag has ended (R256). -/
def Core.tilesFreed (core tag : Nat) (c : Core) : Core :=
  let mine (n : Nat) : Bool := (c.tteTag.toList.getD n 0).toNat == tag
  { c with
    tte := Vector.ofFn fun n => let e := c.tte[n]
      if !mine n.val then e
      else if tteWin e then tteReset core n.val
      else setField (setField (tteReset core n.val) 24 19 (tteLen e)) 0 19 (tteOff e)
    tteTag := Vector.ofFn fun n => if mine n.val then 0 else c.tteTag[n] }

/-- The report of an ended kernel: the drain buffer, the termination record, the closing of END 1 and 2, STATE, then
the queue's cursor (R202, R203, R215, R282). -/
def State.report (s : State) (k : Kernel) (endCode cause : Nat) : State :=
  let r := s.drainRemoved k
  let s := r.2.stageStore k.pkg k.kid (k.slotAddr + 0x80) (bytesOfWords (terminationRecord k endCode cause r.1 s.timeBase)) none
  let s := if endCode = 3 then s else (s.closing k.kid).closingTriggers k.kid (k.aspace.extractLsb' 52 12)
  let st := if endCode = 3 then 4 + cause * 2 ^ 16 else 3
  (s.stagePublish k.pkg (k.slotAddr + 0xC8) [BitVec.ofNat 64 st]).refreshQueue k.pkg k.desc

/-- A kernel ends: its report, its alarms and tiles, and the event (R202, R256, R406). -/
def State.finish (s : State) (k : Kernel) (endCode : Nat) (cause : BitVec 16) : State :=
  let s := s.report k endCode cause.toNat
  let here (c : Nat) : Bool := pkgOf c == k.pkg
  let s := (s.setKernel { k with ended := some endCode, cause := cause }).mapSlots here (Sys2Proof.Machine.Slot.unalarmed k.kid)
  let s := s.mapCores here fun c o =>
    { o.tilesFreed c k.tag with parked := o.parked.filter fun x => !(x.st == .idle && x.par.kid == k.kid) }
  s.emit (.ended k.kid)

/-! #### Faults of kernels (R225, R365) -/

/-- A context of a faulted kernel: its activation is discarded (R187). -/
def Slot.discarded (kid : Nat) (x : Slot) : Slot :=
  if x.par.kid != kid || x.st == .unbound then x
  else { x with
    st := .idle
    q0 := []
    q1 := []
    q2 := []
    q3 := []
    seq := { items := [], opened := none }
    pops := []
    status := setBit x.status 15 false
    par := { x.par with
      alarm := none, contribs := [], request := .none, io := { waiting := none, got := [] }, vio := { waiting := none, got := [] }
      waiting := none, timedOut := false, woke := false, predWaits := false, gangWish := none, refused := none, faults := [], stalled := false,
      taken := [] } }

/-- A core without a faulted kernel's messages, parked contexts and queued commands; a claim of the matrix unit that
one of its contexts holds ends (DEDUCED from R365). -/
def Core.purged (kid tag : Nat) (slots : List Slot) (c : Core) : Core :=
  let mine (o : Origin) : Bool := o.kid == kid
  let held := match c.mx.claim with
    | some i => (slots ++ c.parked).any (fun x => x.par.kid == kid && x.par.ident == i) || c.mx.queue.any fun q => mine q.from_ && q.from_.ident == i
    | none => false
  let mx := { c.mx with queue := c.mx.queue.filter fun q => !mine q.from_ }
  { c.without tag with
    parked := c.parked.filter fun x => x.par.kid != kid
    mx := if held then mx.freed.settle else mx.settle
    xq := c.xq.filter fun q => !mine q.from_ }

/-- The present messages of a kernel, in the order of R202. -/
def State.presentMessages (s : State) (k : Kernel) : List (Nat × Message) :=
  (List.range k.grid).flatMap fun v => match k.coreOf v with
    | some c => (heapOrder ((s.coreAt c).ofTag k.tag)).map fun m => (v, m.msg)
    | none => []

/-- The present messages of a kernel read as they are removed, in that order. -/
def State.presentRead (s : State) (k : Kernel) : List (Nat × Message) × State :=
  (List.range k.grid).foldl (fun r v => match k.coreOf v with
    | some c =>
      let d := r.2.drained c (heapOrder ((r.2.coreAt c).ofTag k.tag))
      (r.1 ++ d.1.map fun m => (v, m), d.2)
    | none => r) ([], s)

/-- The messages of a kernel in flight. -/
def State.flyingMessages (s : State) (k : Kernel) : List (Nat × Message) :=
  s.flight.filterMap fun f => match f with
    | .message kid _ _ d m => if kid = k.kid then some ((k.vcoreOf d).getD 0, m) else none
    | _ => none

/-- The numbers of a kernel's queued commands in a package. -/
def State.commandsOf (s : State) (k : Kernel) : List Nat :=
  k.cores.flatMap fun c => ((s.coreAt c).mx.queue.filterMap fun q => if q.from_.kid = k.kid then some q.from_.id else none)
    ++ ((s.coreAt c).xq.filterMap fun q => if q.from_.kid = k.kid then some q.from_.id else none)

/-- The gangs without those of a kernel. -/
def State.gangsWithout (s : State) (kid : Nat) : List Gang :=
  s.gangs.filter fun g => !g.members.any fun m => (s.slotAt m.1 m.2).par.kid == kid

/-- A kernel is faulted (R365): activations stop, messages are removed, its record is written with END 3. -/
def State.faultOne (s : State) (k : Kernel) (cause : BitVec 16) : State :=
  let p := s.presentRead k
  let k := { k with removed := k.removed ++ p.1 ++ s.flyingMessages k }
  let s := p.2
  let here (c : Nat) : Bool := pkgOf c == k.pkg
  let ids := s.commandsOf k
  let s := { s with gangs := s.gangsWithout k.kid, flight := s.flight.filter fun f => f.kid != k.kid }
  let s := s.mapCores here fun c o => o.purged k.kid k.tag (if c = s.coreId then s.slot :: o.slots.map (·.2) else o.slots.map (·.2))
  ((ids.foldl State.topDone s).mapSlots here (Sys2Proof.Machine.Slot.discarded k.kid)).finish k 3 cause

/-- The same, if it has not ended. -/
def State.faultLive (s : State) (kid : Nat) (cause : BitVec 16) : State :=
  match s.live kid with
  | some k => s.faultOne k cause
  | none => s

/-- The kernels that wait to start behind a faulted one are faulted with it: those whose TARGET its count had not reached
(R224). -/
def State.faultBehind (s : State) (kid : Nat) : Nat → State
  | 0 => s
  | n + 1 =>
    let reached := ((s.kernelAt kid).map (·.succgo)).getD 0
    let waiting := s.kernels.filterMap fun p =>
      if p.2.pred = some kid && !p.2.started && p.2.ended.isNone && reached < p.2.target then some p.1 else none
    waiting.foldl (fun s w => (s.faultLive w 0x0C00).faultBehind w n) s

/-- Some kernels are faulted with a cause, and then those behind them. -/
def State.faultAll (s : State) (kids : List Nat) (cause : BitVec 16) : State :=
  let live := kids.filter fun k => (s.live k).isSome
  let n := s.kernels.length
  live.foldl (fun s k => s.faultBehind k n) (live.foldl (fun s k => s.faultLive k cause) s)

/-- The stretches that the stagehands reach as a kernel ends: its queue's, its slot, and those of its drain buffer (R202, R203). -/
def State.kernelStretches (s : State) (k : Kernel) : List (Nat × Nat) :=
  let drain : List (Nat × Nat) :=
    if k.drainAt = 0 then []
    else (List.range (4 * (k.removed.length + (s.presentMessages k).length + (s.flyingMessages k).length) + 3)).flatMap fun i =>
      let va := k.drainAt + 32 * i
      ((s.trailFrom false va 3 (field k.aspace 12 40 * 4096)).map fun a => (s.forwarded a, 8)) ++ (s.kernelKey k va true).toList.map fun a => (a, 32)
  (k.slotAddr, 256) :: s.queueStretches k.desc ++ drain

/-- Whether the stagehands may end some kernels now, and those that wait to start behind others: no page home or route makes them
wait (R385, R395). -/
def State.reportFree (s : State) (kids : List Nat) : Bool :=
  s.kernels.all fun k =>
    k.2.ended.isSome || !(kids.contains k.1 || (!k.2.started && (k.2.predPending || k.2.pred.isSome)))
      || s.stageFree k.2.pkg (s.kernelStretches k.2)

/-- A kernel is faulted. -/
def State.faulted (s : State) (kid : Nat) (cause : BitVec 16) : State := s.faultAll [kid] cause

/-! #### The final gather (R201) -/

/-- Whether a context of a kernel has a message-form alarm pending (R406). -/
def Slot.alarmed (kid : Nat) (x : Slot) : Bool :=
  x.par.kid == kid && (match x.par.alarm with | some a => a.header != 0 | none => false)

/-- Whether engine commands, tensor operations or gather records of a kernel are to be performed before its closing
(R282, R306). -/
def State.worksFor (s : State) (k : Kernel) : Bool :=
  !(s.commandsOf k).isEmpty || s.tops.any (fun o => o.from_.kid == k.kid) || k.barriers.any fun b => b.2.due

/-- Whether a kernel's final gather may be taken (R201): no activation runs, nothing of it is in flight, and it has
stopped on every core, or it is quiescent. -/
def State.mayEnd (s : State) (k : Kernel) : Bool :=
  k.started && !s.worksFor k && !s.flight.any (fun f => f.kid == k.kid) && k.cores.all (fun c => !s.runsOn k.kid c)
    && (if k.stopping then k.cores.all fun c => ((s.coreAt c).of k.kid).stopSeen
        else k.cores.all (fun c => s.quiet k c && !(s.contextsOf c).any (Sys2Proof.Machine.Slot.alarmed k.kid)) && !s.roundDue k)

/-- Whether a stop report is of a kernel of a user queue. -/
def State.ofQueue (s : State) (desc : Option Nat) : StageEvent → Bool
  | .stop r => (s.kernelAt r.kid).map (·.desc) == desc
  | _ => false

/-- Whether no stop report of a user queue's kernels waits: the stagehands handle the events of one queue in the order they were
queued (R218). -/
def State.queueClear (s : State) (desc : Nat) : Bool := !s.events.any (s.ofQueue (some desc))

/-- The final gather is taken, once the queue's earlier events are handled (R218), and the kernel ends: with END 1 where a round met tolerance (R201, R249, R250). -/
def execFinalGather (kid : Nat) (s : State) : Result :=
  .next (match s.live kid with
    | none => s
    | some k => 
      if s.mayEnd k && s.queueClear k.desc && s.reportFree [kid] then s.gathering k (s.finish (s.gathered k) (if k.tolMet then 1 else 2) 0)
      else s)

end Sys2Proof.Machine
end

