-- ==== Sys2Proof/Machine/Launch.lean ====
section
/-! DEFINITION. The stagehands and the schedule: user queues and notifies (R214-R218, R221, R393), launches (R71, R185,
R191, R219, R224), binding and unbinding (R187, R220, R223, R362), and kernel faults (R225, R365). -/

namespace Sys2Proof.Machine

/-! ### User queues (R214-R217, R221) -/

/-- A notify register is written (R393). -/
def execNotify (pkg hq : Nat) (value : Word) (s : State) : Result := .next (if pkg < Config.packages && hq < 256 then s.deliver pkg hq value else s)

/-- A hardware queue slot of a package. -/
def Ctl.queueAt (c : Ctl) (hq : Nat) : Option HwQueue := (c.queues.find? fun q => q.1 == hq).map (·.2)

/-- The mapped queues of a package. -/
def Ctl.mapped (c : Ctl) : List HwQueue := (c.queues.map (·.2)).filter (·.mapped)

/-- Whether a user queue is mapped anywhere on the blade. -/
def State.queueMapped (s : State) (d : Nat) : Bool := s.ctls.any fun c => c.2.mapped.any fun q => q.desc == d

/-- What the stagehands remember of a user queue that was mapped before. -/
def State.queueBefore (s : State) (d : Nat) : Option HwQueue :=
  s.ctls.findSome? fun c => (c.2.queues.find? fun q => q.2.desc == d).map (·.2)

/-- The control dies without what they remember of a user queue, and with what a slot held kept under a key past the
slots. -/
def Ctl.retire (c : Ctl) (d : Nat) (slot : Option Nat) : Ctl :=
  { c with queues := (c.queues.filter fun q => q.2.desc != d).map fun q => if some q.1 = slot then (256 + q.2.desc, q.2) else q }

/-- SHADOW as one notify: its value where PEND is set. -/
def State.shadowOf (s : State) (d : Nat) : Nat :=
  let w := s.stageWord (d + 0x20)
  if w.getLsbD 63 then field w 0 63 else 0

/-- The first item of a user queue from one on that its slots do not show as taken (R215, R216). -/
def State.untakenFrom (s : State) (d : Nat) : Nat → Nat → Nat
  | q, 0 => q
  | q, n + 1 => match s.itemState d q with
    | some st => if st ≥ 1 then s.untakenFrom d (q + 1) n else q
    | none => q

/-- The next item of a user queue that the stagehands take, as its words say: from the device's cursor on. -/
def State.nextItem (s : State) (d : Nat) : Nat := s.untakenFrom d (s.stageWord (d + 0x40)).toNat (2 ^ s.queueLog d)

/-- The largest notify seen for a user queue when it was mapped before; 0 where the queue has been created afresh since: it
offers items anew that had been taken, or its TAIL has not passed what was seen (R216, R221). -/
def State.seenBefore (s : State) (d : Nat) : Nat :=
  match s.queueBefore d with
  | some q => if s.nextItem d < q.next || (s.stageWord (d + 0x10)).toNat ≤ q.seen then 0 else q.seen
  | none => 0

/-- A user queue is mapped (R216, R221): ALLOW is written afresh and SHADOW is honoured. A descriptor whose page has moved is read where
it now lies (R387). -/
def execQueueMap (pkg hq desc : Nat) (s : State) : Result :=
  let desc := s.forwarded desc
  .next (if pkg < Config.packages && hq < 256 && desc % 128 == 0 && !((s.ctlAt pkg).queueAt hq).any (·.mapped) && !s.queueMapped desc
        && s.queueClear desc && s.stageFree pkg (s.queueStretches desc) then
      let r := s.queueScan pkg desc
      if !r.1 then r.2 else
      let s := r.2
      let shadow := s.shadowOf desc
      let q : HwQueue := { desc := desc, mapped := true, seen := max shadow (s.seenBefore desc), next := s.nextItem desc }
      let s := { s with ctls := s.ctls.map fun (c : Nat × Ctl) => (c.1, c.2.retire desc (if c.1 = pkg then some hq else none)) }
      let c := s.ctlAt pkg
      let s := (s.setCtl pkg { c with queues := assocSet hq q c.queues }).refreshQueue pkg desc
      if (s.stageWord (desc + 0x20)).getLsbD 63 then s.stageStore pkg 0 (desc + 0x20) (toBytes 8 shadow) none else s
    else s)

/-- A user queue is unmapped (R221). -/
def execQueueUnmap (pkg hq : Nat) (s : State) : Result :=
  let c := s.ctlAt pkg
  .next (match c.queueAt hq with
    | some q => if q.mapped && hq < 256 && s.queueClear q.desc then s.setCtl pkg { c with queues := assocSet hq { q with mapped := false } c.queues } else s
    | none => s)

/-- The stagehands bring CUR0 and ALLOW of a mapped user queue up to date, as its other consumers' cursors stand (R215). -/
def State.queueRefreshed (s : State) (pkg hq : Nat) : State :=
  match (s.ctlAt pkg).queueAt hq with
  | some q => if pkg < Config.packages && q.mapped && s.stageFree pkg (s.queueStretches q.desc) then s.refreshQueue pkg q.desc else s
  | none => s

/-! ### Launches (R71, R184, R185, R191, R215, R219) -/

/-- Whether a launch record is valid (R71). -/
def recordOk (r : List Word) : Bool :=
  let w (i : Nat) : Word := r.getD i 0
  let tol := fp32.decode (field (w 4) 32 32)
  field (w 0) 32 32 == 0 && field (w 0) 16 16 == 128 && field (w 0) 0 16 == 1
    && w 1 != 0 && (w 1).toNat % 4 == 0
    && field (w 2) 37 27 == 0 && 1 ≤ field (w 2) 32 5 && field (w 2) 32 5 ≤ 16 && field (w 2) 16 16 != 0 && field (w 2) 0 16 != 0
    && !tol.isNan && !(tol.lt (fp32.decode 0))
    && field (w 13) 34 30 == 0 && (w 12 != 0 || field (w 13) 0 32 == 0)

/-- Whether the grade enables a core of a package, by its die, column and row. -/
def State.enables (s : State) (pkg die x y : Nat) : Bool := !s.disabled.contains (clusterId ((pkg * 8 + die) * 576 + y * 24 + x))

/-- How many stretches of a width a row of clusters holds, of which each says whether it is enabled; `run` are enabled just
before it. -/
def stretches (width : Nat) : List Bool → Nat → Nat
  | [], run => run / width
  | b :: bs, run => if b then stretches width bs (run + 1) else run / width + stretches width bs 0

/-- The clusters that a row of some columns takes up at least. -/
def clustersAcross (cols : Nat) : Nat := (cols + 3) / 4

/-- How many virtual rows of a width the enabled cores of a package hold: bands share no cluster (R261), and a cluster is
enabled or disabled whole (R184), so that bands that take up whole clusters from their left edge are as good as any. -/
def State.rowsHeld (s : State) (pkg cols : Nat) : Nat :=
  4 * ((List.range 48).map fun r =>
    stretches (clustersAcross cols) ((List.range 6).map fun x => s.enables pkg (r / 6) (4 * x) (4 * (r % 6))) 0).sum

/-- Whether some division into bands exists on the enabled cores of a package, whatever other kernels occupy (R184,
R185). -/
def State.placeable (s : State) (pkg cols rows : Nat) : Bool := 1 ≤ cols && cols ≤ 24 && rows ≤ s.rowsHeld pkg cols

/-- Whether two bands of a grid share a cluster (R261; log 50). -/
def bandsMeet (cols : Nat) (a b : Band) : Bool :=
  let last (o n : Nat) : Nat := (o + n - 1) / 4
  a.die == b.die && a.x0 / 4 ≤ last b.x0 cols && b.x0 / 4 ≤ last a.x0 cols
    && a.y0 / 4 ≤ last b.y0 b.height && b.y0 / 4 ≤ last a.y0 a.height

/-- Whether bands divide the rows from a row on, each on a die and with clusters of its own (R185, R261). -/
def bandsFrom (cols rows : Nat) : Nat → List Band → Bool
  | r, [] => r == rows
  | r, b :: bs => b.row0 == r && 1 ≤ b.height && b.die < 8 && b.x0 + cols ≤ 24 && b.y0 + b.height ≤ 24 && !bs.any (bandsMeet cols b)
      && bandsFrom cols rows (r + b.height) bs

/-- Whether a tag is free in a package: no kernel there runs with it, and no slot is bound to it. -/
def State.tagFree (s : State) (pkg tag : Nat) : Bool :=
  let bound (x : Slot) : Bool := x.st != .unbound && x.tag.toNat == tag
  1 ≤ tag && tag < 1024 && (s.kernelOfTag pkg tag).isNone
    && !(pkgOf s.coreId == pkg && (bound s.slot || s.core.slots.any fun x => bound x.2))
    && !s.cores.any (fun c : Nat × Core => pkgOf c.1 == pkg && c.2.slots.any fun x => bound x.2)

/-- Whether a plan places a record's grid as R185 says, with a free tag, an image's handlers and `.tile` entries. -/
def State.planOk (s : State) (pkg : Nat) (plan : LaunchPlan) (r : List Word) : Bool :=
  let enabled (b : Band) : Bool := (List.range b.height).all fun i =>
    (List.range (field (r.getD 2 0) 0 16)).all fun j => s.enables pkg b.die (b.x0 + j) (b.y0 + i)
  bandsFrom (field (r.getD 2 0) 0 16) (field (r.getD 2 0) 16 16) 0 plan.bands && plan.bands.all enabled && s.tagFree pkg plan.tag && plan.handlers.length ≤ 64
    && plan.aspace.getLsbD 0
    && plan.tiles.all fun t => t.1 < 64 && t.2.1 % 128 == 0 && t.2.2 % 128 == 0 && t.2.1 + t.2.2 ≤ Config.scratchpadBytes

/-- The kernel that an address of a launch queue slot names while its item is accepted (R71, R224). DESIGN CHOICE (log 54): of "accepted or
pending in a mapped queue" (R215) the mapping is asked of a pending item only; an accepted one counts also when its queue is unmapped. -/
def State.acceptedAt (s : State) (addr : Nat) : Option Kernel :=
  (s.kernels.find? fun k => k.2.slotAddr == s.forwarded addr && k.2.ended.isNone).map (·.2)

/-- Whether an address names the slot of a pending item of a mapped queue. -/
def State.pendingAt (s : State) (addr : Nat) : Bool :=
  s.ctls.any fun c => c.2.mapped.any fun q =>
    let slot := s.forwarded addr
    let seq := (s.stageWord (slot + 0xC0)).toNat
    q.next ≤ seq && s.queueSlot q.desc seq == slot && field (s.stageWord (slot + 0xC8)) 0 8 == 0

/-- The refusal code of a record, 0 for none: the lowest that applies (R215). -/
def State.refusalCode (s : State) (pkg : Nat) (r : List Word) (level : Nat) (handlers : List Word) : Nat :=
  let w (i : Nat) : Word := r.getD i 0
  if !recordOk r then 1
  else if !s.placeable pkg (field (w 2) 0 16) (field (w 2) 16 16) then 2
  else if field (w 13) 32 2 > level then 3
  else if w 12 != 0 && (s.acceptedAt (w 12).toNat).isNone && !s.pendingAt (w 12).toNat then 4
  else if !handlers.contains (w 1) || (w 3 != 0 && !handlers.contains (w 3)) then 5
  else 0

/-- The kernel of an accepted item. -/
def State.newKernel (s : State) (pkg desc addr : Nat) (plan : LaunchPlan) (r : List Word) : Kernel where
  kid := (s.ids + 1) * 4096 + pkg * 1024 + plan.tag
  desc := desc
  slotAddr := addr
  record := r
  bands := plan.bands
  handlers := plan.handlers
  tiles := plan.tiles
  aspace := plan.aspace
  dflt := if r.getD 3 0 = 0 then none else plan.handlers.findIdx? (· == r.getD 3 0)
  barriers := []
  kmaps := []
  succgo := 0
  rounds := 0
  hi := 0
  lo := 0
  started := false
  pred := if r.getD 12 0 = 0 then none else (s.acceptedAt (r.getD 12 0).toNat).map (·.kid)
  predPending := r.getD 12 0 != 0 && (s.acceptedAt (r.getD 12 0).toNat).isNone
  stopping := false
  tolMet := false
  ended := none
  cause := 0
  drop := 0
  removed := []
  accepted := s.seq
  joined := (List.range Config.packages).filter s.joined

/-- The kernels that wait for the item of a slot to be accepted. -/
def State.awaiting (s : State) (addr : Nat) : List Kernel :=
  (s.kernels.map (·.2)).filter fun k => k.predPending && s.forwarded k.predAt == addr && k.ended.isNone

/-- An item is accepted: its kernel, its STATE, and the successors that waited for it, which it is itself where its PRED
names its own slot (R219, R224). -/
def State.accepts (s : State) (pkg desc addr : Nat) (plan : LaunchPlan) (r : List Word) : State :=
  let k := s.newKernel pkg desc addr plan r
  let s := { s with ids := s.ids + 1, kernels := s.kernels ++ [(k.kid, k)] }
  let s := (s.awaiting addr).foldl (fun s w => s.setKernel { w with pred := some k.kid, predPending := false }) s
  s.stagePublish pkg (addr + 0xC8) [1]

/-- An item is refused: its STATE, the queue's cursor, and the kernels that waited for it (R215, R224). -/
def State.refuses (s : State) (pkg desc addr code : Nat) : State :=
  let waiting := (s.awaiting addr).map (·.kid)
  let s := (s.stagePublish pkg (addr + 0xC8) [BitVec.ofNat 64 (2 + code * 2 ^ 16)]).refreshQueue pkg desc
  waiting.foldl (fun s w => s.faulted w 0x0C00) s

/-- Whether a queue of a package holds an item to be taken. -/
def State.queueReady (s : State) (q : HwQueue) : Bool := q.mapped && q.next ≤ q.seen && (s.stageWord (s.queueSlot q.desc q.next + 0xC0)).toNat == q.next

/-- The words of a record as the stagehands of a package read them. -/
def State.stageRecord (s : State) (pkg addr : Nat) : Nat → List Word × State
  | 0 => ([], s)
  | n + 1 =>
    let r := s.loadPlain (.stagehand pkg) addr 8
    let rest := r.2.stageRecord pkg (addr + 8) n
    (wordOf r.1 :: rest.1, rest.2)

/-- Whether the items of another queue come before those of one of a level and a hardware slot (R217): a ready queue of a
higher level, or of the same level and nearer after the slot that was served last there. -/
def State.queueAhead (s : State) (c : Ctl) (level hq : Nat) (o : Nat × HwQueue) : Bool :=
  let turn (j : Nat) : Nat := (j + 255 - c.served.toList.getD level 255) % 256
  s.queueReady o.2 && (s.queueLevel o.2.desc > level || (s.queueLevel o.2.desc == level && turn o.1 < turn hq))

/-- The words of a queue by which the stagehands choose among queues: its descriptor, and SEQ of the slot of its next item. -/
def State.headStretches (s : State) (q : HwQueue) : List (Nat × Nat) := [(q.desc, 128), (s.queueSlot q.desc q.next + 0xC0, 8)]

/-- The other mapped queues of a package whose next item has been notified of. -/
def State.otherQueues (s : State) (pkg hq : Nat) : List (Nat × HwQueue) :=
  (s.ctlAt pkg).queues.filter fun o => o.1 != hq && o.2.mapped && o.2.next ≤ o.2.seen

/-- The stagehands of a package read those words of some queues; a queue whose words meet a machine check is reported and is left
out of the choice (R266, R367). -/
def State.contenders (s : State) (pkg : Nat) (qs : List (Nat × HwQueue)) : List (Nat × HwQueue) × State :=
  qs.foldl (fun r o =>
    let f := r.2.stageScan pkg 0 (r.2.headStretches o.2)
    (if f.1 then r.1 ++ [o] else r.1, f.2)) ([], s)

/-- The words that say whether the item which a record's PRED names is pending, where no lower refusal code applies and no
accepted kernel is at that slot. -/
def State.predStretches (s : State) (code : Nat) (pred : Word) : List (Nat × Nat) :=
  if (code = 0 ∨ 3 < code) ∧ pred ≠ 0 ∧ (s.acceptedAt pred.toNat).isNone then [(s.forwarded pred.toNat + 0xC0, 16)] else []

/-- A control die that has taken an item of a hardware queue slot at a level. -/
def Ctl.serves (c : Ctl) (hq level : Nat) (q : HwQueue) : Ctl :=
  { c with
    queues := assocSet hq { q with next := q.next + 1 } c.queues
    served := c.served.mapFinIdx fun i v _ => if i = level then hq else v }

/-- The next item of a queue is taken (R217, R219): accepted as planned, or refused. A machine check at the words that the
stagehands read of this queue, or of the item that PRED names, ends what they do before the item is taken (R367). -/
def execLaunchAccept (pkg hq : Nat) (plan : LaunchPlan) (s : State) : Result :=
  let c := s.ctlAt pkg
  .next (match c.queueAt hq with
    | none => s
    | some q =>
      let level := s.queueLevel q.desc
      if !s.queueReady q || !s.queueClear q.desc || !(s.otherQueues pkg hq).all (fun o => s.stageFree pkg (s.headStretches o.2))
          || !s.stageFree pkg ((s.queueSlot q.desc q.next, 256) :: s.queueStretches q.desc) || !s.reportFree [] then s
      else
        let f := s.stageScan pkg 0 [(q.desc, 128), (s.queueSlot q.desc q.next, 256)]
        if !f.1 then f.2 else
        let g := f.2.contenders pkg (f.2.otherQueues pkg hq)
        let s := g.2
        if g.1.any (s.queueAhead c level hq) then s else
        let addr := s.queueSlot q.desc q.next
        let (r, t) := ((s.sawBefore (.stagehand pkg) (addr + 0xC0) 8 s.seq).acquire (.stagehand pkg) .sys).stageRecord pkg addr 16
        let code := s.refusalCode pkg r level plan.handlers
        if !s.stageFree pkg (s.predStretches code (r.getD 12 0)) then s else
        let h := t.stageScan pkg 0 (s.predStretches code (r.getD 12 0))
        if !h.1 then h.2 else
        let t := h.2.setCtl pkg ((h.2.ctlAt pkg).serves hq level q)
        if code != 0 then t.refuses pkg q.desc addr code
        else if s.planOk pkg plan r then t.accepts pkg q.desc addr plan r
        else s)

/-! ### Binding (R187, R219, R220, R224, R256, R265) -/

/-- Whether a kernel may start (R224). -/
def State.mayStart (s : State) (k : Kernel) : Bool :=
  !k.predPending && (match k.pred with
    | none => true
    | some p => match s.kernelAt p with
      | some p => k.target ≤ p.succgo || p.ended.isSome
      | none => true)

/-- Whether a kernel's `.tile` entries are free on a core (R256). -/
def State.tilesFit (s : State) (core : Nat) (k : Kernel) : Bool := k.tiles.all fun t => s.tteTagAt core t.1 == 0

/-- The loader writes a kernel's `.tile` entries on a core (R256). -/
def State.loadTiles (s : State) (core : Nat) (k : Kernel) : State :=
  k.tiles.foldl (fun s t =>
    (s.setTte core t.1 (setField (setField (tteReset core t.1) 24 19 t.2.2) 0 19 t.2.1)).setTteTag core t.1 (BitVec.ofNat 10 k.tag)) s

/-- The fields of RGN0-RGN3, ASPACE and IRQWIN (R265, R377, R409). -/
def rgnFields : Word := 0x00FFFFFFFFE0003F
def aspaceFields : Word := 0xFFFFFFFFFFFFF001
def irqwinFields : Word := 0x07FF07FF

/-- The first bind of a kernel on a core writes its tiles; every bind as the operating system directs keeps what the control die
is to write there (R256, R265, R409). -/
def State.firstBind (s : State) (core : Nat) (k : Kernel) (regs : Option BindRegs) : State :=
  let s := if ((s.coreAt core).of k.kid).bound then s else s.loadTiles core k
  let c := s.coreAt core
  let r := { c.of k.kid with bound := true }
  s.setCore core (c.putOf (match regs with
    | none => r
    | some g => { r with rgn := Vector.ofFn fun i => g.rgn.getD i.val 0 &&& rgnFields, irqwin := g.irqwin &&& irqwinFields }))

/-- The slots of a core. -/
def State.slotsOf (s : State) (core : Nat) : List Slot := (List.range 16).map (s.slotAt core)

/-- Whether a context of a kernel that satisfies a test is bound on a core. -/
def State.holds (s : State) (core : Nat) (p : Nat → Bool) : Bool := (s.slotsOf core).any fun x => x.st != .unbound && p x.par.kid

/-- A kernel comes to a core (R265, R357, R377, R409): the control die writes ASPACE, IRQWIN and the region registers, those
that the operating system directs at this bind or, for a parked context that is bound again, did last; and on a core that holds
no other kernel PFVEC = 0. With a context of the kernel bound there already, nothing. -/
def State.comesTo (s : State) (core : Nat) (k : Kernel) (regs : Option BindRegs) : State :=
  if s.holds core (· == k.kid) then s
  else
    let alone := !s.holds core (· != k.kid)
    let s := s.firstBind core k regs
    let c := s.coreAt core
    s.setCore core { c with
      aspace := k.aspace &&& aspaceFields
      rgn := (c.of k.kid).rgn
      irqwin := (c.of k.kid).irqwin
      pfvec := if alone then 0 else c.pfvec }

/-- The message that a launch creates for a virtual core (R72). -/
def Kernel.firstMessage (k : Kernel) (v : Nat) : Message where
  header := BitVec.ofNat 64 (k.gain * 2 ^ 32 + (k.handlers.findIdx (· == k.entry)) % 64 * 2 ^ 26 + k.tag * 2 ^ 16 + v % 2 ^ 16)
  p := Vector.ofFn fun i => k.record.getD (5 + i.val) 0

/-- A kernel's first messages, once (R72, R219). -/
def State.starts (s : State) (k : Kernel) : State :=
  if k.started then s
  else
    let ms := (List.range k.grid).filterMap fun v => (k.coreOf v).map fun c => Flight.message k.kid c 0 c (k.firstMessage v)
    { s.setKernel { k with started := true } with flight := s.flight ++ ms }

/-- The parked context of a workspace of a core. -/
def Core.parkedAt (c : Core) (wp : Nat) : Option Slot := c.parked.find? fun x => x.wp.toNat == wp && x.st != .idle

/-- The contexts that a kernel has on a core, in slots and parked with an unfinished activation; a workspace that is only kept for its
alarm (R406) is none. -/
def State.contextCount (s : State) (kid core : Nat) : Nat :=
  ((s.slotsOf core).filter fun x => x.par.kid == kid && x.st != .unbound).length
    + ((s.coreAt core).parked.filter fun x => x.par.kid == kid && x.st != .idle).length

/-- Whether a kernel has a context bound on a core, or engine commands or tensor operations there, or a gather record to be written
(R377). -/
def State.worksOn (s : State) (core : Nat) (kid : Nat) : Bool :=
  let c := s.coreAt core
  s.holds core (· == kid) || c.mx.queue.any (·.from_.kid == kid) || c.xq.any (·.from_.kid == kid)
    || s.tops.any (fun o => o.core == core && o.from_.kid == kid)
    || (s.kernelAt kid).any fun k => k.barriers.any (·.2.due)

/-- Whether no kernel of another address space works on a core (R377; log 50). -/
def State.sharesSpace (s : State) (core : Nat) (k : Kernel) : Bool :=
  s.kernels.all fun p =>
    p.1 == k.kid || p.2.aspace &&& aspaceFields == k.aspace &&& aspaceFields || (p.2.vcoreOf core).isNone || !s.worksOn core p.1

/-- Whether a bind record can be acted on: PARK says whether the workspace holds a parked context of the kernel, and a further
context needs one of the kernel's contexts and its tiles (R191, R219, R256, R377). -/
def State.canBind (s : State) (k : Kernel) (core wp : Nat) (park : Bool) : Bool :=
  s.sharesSpace core k && (match (s.coreAt core).parkedAt wp, park with
    | some x, true => x.par.kid == k.kid
    | none, false => s.contextCount k.kid core < k.ctx && (((s.coreAt core).of k.kid).bound || s.tilesFit core k)
    | _, _ => false)

/-- A bind of a kernel's context that the record asks for; the round of the kernels goes on after it (R222). -/
def State.binds (s : State) (k : Kernel) (core slot wp vcore : Nat) (regs : Option BindRegs) : State :=
  let c := s.coreAt core
  let s := s.setCore core { c with lastBound := k.kid }
  match c.parkedAt wp with
  | some x => (s.comesTo core k regs).within core slot fun s => s.bindParked x
  | none => ((s.comesTo core k regs).starts k).within core slot fun s => s.bindIdle k.kid k.tag vcore wp

/-- The effective level by which the stagehands judge a kernel on a core: that of its oldest present message, or its
PRIO while none is present (R222). -/
def State.bindLevel (s : State) (k : Kernel) (core : Nat) : Nat :=
  match (s.coreAt core).ofTag k.tag with
  | [] => k.prio
  | m :: ms => k.levelOf s.timeBase (ms.foldl (fun a b => if b.stamp < a.stamp then b else a) m)

/-- Whether kernel a comes before kernel b in turn, after the one that a core bound last (R222). -/
def kernelBefore (last a b : Nat) : Bool :=
  if (last < a) == (last < b) then a < b else last < a

/-- Whether the wake of a parked context is there, or what it waits for. -/
def SlotPar.awaited (p : SlotPar) : Bool := p.wake || p.woke || p.met

/-- Whether a parked context is to be bound again: its wake is there, or what it waits for (R223, R286, R363), and its workspace is
free. -/
def State.toRebind (s : State) (core : Nat) (x : Slot) : Bool :=
  x.st != .idle && x.par.awaited && !(s.boundWs core).contains x.wp.toNat

/-- Whether a kernel is to get a slot of a core: a message of it is present that no IDLE slot of it takes, and it may have a further
context there, or one of its parked contexts is to be bound again (R187, R222, R223). -/
def State.wantsSlot (s : State) (p : Kernel) (core : Nat) : Bool :=
  (!((s.coreAt core).ofTag p.tag).isEmpty && s.contextCount p.kid core < p.ctx
      && !(s.slotsOf core).any fun x => x.st == .idle && x.par.kid == p.kid)
    || (s.coreAt core).parked.any fun x => x.par.kid == p.kid && s.toRebind core x

/-- Whether another kernel that is to get a slot of a core comes before a kernel in binding there: by a higher level, or by an
earlier turn of the same one (R222). -/
def State.outbid (s : State) (k : Kernel) (core : Nat) : Bool :=
  s.kernels.any fun p =>
    p.1 != k.kid && p.2.ended.isNone && p.2.pkg == k.pkg && (p.2.vcoreOf core).isSome && s.wantsSlot p.2 core
      && (s.bindLevel k core < s.bindLevel p.2 core
        || (s.bindLevel k core == s.bindLevel p.2 core && kernelBefore (s.coreAt core).lastBound p.1 k.kid))

/-- The slot table of a core with a bind record written (R219). -/
def State.putBind (s : State) (core slot : Nat) (record : Word) : State :=
  let c := s.coreAt core
  s.setCore core { c with binds := c.binds.mapFinIdx fun i r _ => if i = slot then record else r }

/-- The fields of a bind record (R219). -/
def bindFields : Word := 0x800FFFFFFC07F001

/-- A bind record is written with V = 1 (R219, R220): the slot table holds it; one that names a bound workspace is only
reported; one for an UNBOUND slot binds it. The stagehands write no such record where they may not (R222, R224) or where it could
not be acted on. -/
def execBindRecordWrite (core slot : Nat) (record : Word) (regs : BindRegs) (s : State) : Result :=
  .next (
    let wp := bindWp record
    let t := s.putBind core slot (record &&& bindFields)
    if !(bindV record && core < Config.packages * Config.coresPerPackage && slot < 16 && (s.ctlAt (pkgOf core)).released
        && wp + 4096 ≤ Config.scratchpadBytes) then s
    else if (s.boundWs core).contains wp then t.emit (.bindRefused core slot)
    else if (s.slotAt core slot).st != .unbound then t
    else
      match s.kernelOfTag (pkgOf core) (bindTag record) with
      | none => s
      | some k =>
        if s.mayStart k && k.coreOf (bindVcore record) == some core && !s.outbid k core && s.canBind k core wp (bindPark record) then
          t.binds k core slot wp (bindVcore record) (some regs)
        else s)

/-- The context of a slot takes a pending unbind request, if it can now. -/
def State.unbindNow (s : State) (core slot : Nat) : State :=
  s.within core slot fun s => if s.slot.par.unbind then s.takeUnbind.getD s else s

/-- Marking a slot for unbinding. -/
def State.askUnbind (s : State) (core slot : Nat) : State :=
  let x := s.slotAt core slot
  s.setSlot core slot { x with par := { x.par with unbind := true } }

/-- The bind record of a slot with V = 0. -/
def State.clearBind (s : State) (core slot : Nat) : State :=
  s.putBind core slot (setBit ((s.coreAt core).binds.toList.getD slot 0) 63 false)

/-- A bind record is written with V = 0 (R220): an IDLE slot is unbound at once. -/
def execUnbindRequest (core slot : Nat) (s : State) : Result :=
  .next (
    let t := s.clearBind core slot
    match (s.slotAt core slot).st with
    | .idle => (t.askUnbind core slot).unbindNow core slot
    | .active => t.askUnbind core slot
    | .waiting => t.askUnbind core slot
    | _ => t)

/-- A core takes an unbind request at a boundary (R362), and before it the expiry of a watchdog count that has reached its
limit (R356). The trap of the instruction at that boundary, which comes before both, is taken by the turn (`step`). -/
def execPreemption (core slot : Nat) (s : State) : Result :=
  .next (s.within core slot fun s =>
    if !s.slot.par.unbind then s else if s.wdDue then s.expire else s.takeUnbind.getD s)

/-! ### Levels and waits (R222, R223) -/

/-- A present message has spent another full aging limit (R222). -/
def execAgingLimit (core stamp : Nat) (s : State) : Result :=
  let c := s.coreAt core
  .next (s.setCore core { c with heap := c.heap.map fun m =>
    if m.stamp = stamp && m.since + (m.raised + 1) * Config.agingLimit ≤ s.timeBase then { m with raised := m.raised + 1 } else m })

/-- The tags with a present message and no slot on a core. -/
def State.unserved (s : State) (core : Nat) : List Nat :=
  (((s.coreAt core).heap.map fun m => hdrTag m.msg.header).eraseDups).filter fun t => !(s.slotsOf core).any fun x => x.tag.toNat == t

/-- Whether a context has waited past its kernel's wait limit (R223). -/
def State.overdue (s : State) (x : Slot) : Bool :=
  x.st == .waiting && !x.par.unbind && (match s.kernelAt x.par.kid with
    | some k => x.par.waitFrom + k.waitLimit < s.timeBase
    | none => false)

/-- A context that has waited past its limit, the oldest of those, is unbound for a kernel that has no slot (R223). -/
def execWaitLimit (core slot : Nat) (s : State) : Result :=
  .next (
    let xs := s.slotsOf core
    let x := s.slotAt core slot
    let asked := (xs.filter fun y => y.par.unbind).length
    if xs.all (fun y => y.st == .active || y.st == .waiting) && asked < (s.unserved core).length && s.overdue x
        && xs.all (fun y => !s.overdue y || x.par.waitFrom ≤ y.par.waitFrom) then
      ((s.clearBind core slot).askUnbind core slot).unbindNow core slot
    else s)

/-- The record by which the stagehands bind a parked context again (R219). -/
def parkRecord (x : Slot) : Word :=
  BitVec.ofNat 64 (2 ^ 63 + x.tag.toNat * 2 ^ 42 + x.vcore.toNat * 2 ^ 26 + x.wp.toNat / 4096 % 128 * 2 ^ 12 + 1)

/-- A parked context is rebound on its core once its wake is there, or what it waits for (R286, R363), and a slot is free
(R223): the stagehands write its record, in the order of R222. -/
def execParkedRebind (core slot wp : Nat) (s : State) : Result :=
  .next (match (s.coreAt core).parkedAt wp with
    | some x =>
      match s.live x.par.kid with
      | some k =>
        if slot < 16 && x.par.awaited && (s.slotAt core slot).st == .unbound && !(s.boundWs core).contains wp
            && s.sharesSpace core k && !s.outbid k core then
          (s.putBind core slot (parkRecord x)).binds k core slot wp x.vcore.toNat none
        else s
      | none => s
    | none => s)

/-! ### Kernel faults (R225, R365) -/

/-- Whether a context of a kernel waits in `predwait`. -/
def State.inPredwait (s : State) (k : Kernel) : Bool :=
  k.cores.any fun c => (s.contextsOf c).any fun x => x.par.kid == k.kid && x.st == .waiting && x.par.predWaits

/-- Whether a kernel descends from another by PRED, within a number of steps. -/
def State.descends (s : State) (of : Nat) (k : Kernel) : Nat → Bool
  | 0 => false
  | n + 1 => match k.pred with
    | some p => p == of || (match s.kernelAt p with | some q => s.descends of q n | none => false)
    | none => false

/-- An edge of the wait-for graph (R225). -/
def State.waitsOn (s : State) (k p : Nat) : Bool :=
  match s.live k, s.live p with
  | some k, some p => (s.inPredwait k && k.pred == some p.kid)
      || (!k.started && !s.mayStart k && s.descends k.kid p s.kernels.length)
  | _, _ => false

/-- Whether each of some kernels waits on the next, and the last on one given. -/
def State.chain (s : State) (first : Nat) : List Nat → Bool
  | [] => false
  | [k] => s.waitsOn k first
  | k :: p :: ks => s.waitsOn k p && s.chain first (p :: ks)

/-- The kernels that some kernels reach in the wait-for graph by a number of edges or fewer, those among them. -/
def State.reach (s : State) (ks : List Nat) : Nat → List Nat
  | 0 => ks
  | n + 1 => s.reach ((s.kernels.map (·.1)).filter fun p => ks.contains p || ks.any fun k => s.waitsOn k p) n

/-- The kernels on a cycle through one (R225). -/
def State.onCycle (s : State) (k : Nat) : List Nat :=
  let n := s.kernels.length
  (s.reach [k] n).filter fun p => (s.reach [p] n).contains k

/-- A cycle of the wait-for graph faults every kernel on it (R225). -/
def execDependencyDeadlock (kids : List Nat) (s : State) : Result :=
  let k := kids.headD 0
  .next (if s.chain k kids && s.reportFree (s.onCycle k) then s.faultAll (s.onCycle k) 0x0C01 else s)

/-- Whether the stop report at a place is the first of its queue: the stagehands handle those in the order they were queued
(R218). -/
def State.firstStop (s : State) (i : Nat) (r : StopReport) : Bool :=
  !(s.events.take i).any (s.ofQueue ((s.kernelAt r.kid).map (·.desc)))

/-- The stagehands answer a stop report by faulting the kernel (R218, R365). -/
def execKernelFault (pkg i : Nat) (s : State) : Result :=
  .next (match s.events[i]? with
    | some (.stop r) =>
      if r.kid / 1024 % 4 = pkg && s.firstStop i r && s.reportFree [r.kid] then
        ({ s with events := s.events.eraseIdx i }).faulted r.kid (if r.orig = 0 then r.cause else r.orig)
      else s
    | _ => s)

/-- The stop report of the watchdog for a context slot, if an event is that. -/
def expiryOf (core slot : Nat) : StageEvent → Option StopReport
  | .stop r => if r.core == core && r.slot == slot && r.cause == 0x0F02 then some r else none
  | _ => none

/-- A context that the watchdog stopped goes on at its saved PC, its count 0, once its report is the first of its queue
(R218, R365). -/
def execContextResume (core slot : Nat) (s : State) : Result :=
  .next (
    let x := s.slotAt core slot
    match s.events.findIdx? fun e => (expiryOf core slot e).isSome with
    | none => s
    | some i =>
      if x.st == .stopped && x.par.stopped == 0x0F02 && ((s.events[i]?.bind (expiryOf core slot)).any (s.firstStop i)) then
        ({ s with events := s.events.eraseIdx i }).within core slot fun s =>
          State.switchIn { s with slot := { s.slot with st := .active, par := { s.slot.par with stopped := 0, issues := false, wd := s.cycle } } }
      else s)

/-! ### Events of a context's own (R33, R43, R132) -/

/-- The core finds a stream deadlock (R33). -/
def execStreamDeadlock (core slot : Nat) (s : State) : Result :=
  .next (s.within core slot fun s =>
    if (s.slot.st == .active || s.slot.st == .waiting) && s.slot.par.stalled then
      match s.vectorTry with
      | .empty => s.deadlock.disbanding s
      | .blocked (.queue _) => s.deadlock.disbanding s
      | _ => s
    else s)

/-- The watchdog count reaches its limit (R43). -/
def execWatchdogExpiry (core slot : Nat) (s : State) : Result :=
  .next (s.within core slot fun s => if s.wdDue then s.expire else s)

/-- The time base reaches a waiting context's deadline (R132): it is ACTIVE again, to complete its `wait`, which a wake of an alarm that
was due by then has ended, or the deadline. -/
def execWaitDeadline (core slot : Nat) (s : State) : Result :=
  .next (let x := s.slotAt core slot
    match x.st, x.par.waiting with
    | .waiting, some (d, _) =>
      if d.toNat ≤ s.timeBase then
        let y := x.rung s.timeBase s.cycle
        s.setSlot core slot (if y.st = .waiting then y.expired s.cycle else y)
      else s
    | _, _ => s)

end Sys2Proof.Machine
end

