-- ==== Sys2Proof/Machine/Die.lean ====
section
/-! DEFINITION. The control die and the edges of the package: its registers (R5, R369, R370, R392, R413), power
(R420), the links between dies and packages (R394-R401), endpoints behind the root ports (R389, R415, R416), and boot and
attestation (R417-R419). -/

namespace Sys2Proof.Machine

/-! ### Registers (R5, R392) -/

/-- The fields of the registers that have reserved bits (R407, R412, R413, R25, R358). -/
def sysIrqFields : Word := 0x800707FF
def sdvaFields : Word := 0x00FFFFFFFFFFFC00
def movcfgFields : Word := 0xFFFFFFFFFFFFFF0F
def pfvecFields : Word := 0x00FFFFFFFFFFFFFC

/-- Changing a control die. -/
def State.mapCtl (s : State) (p : Nat) (f : Ctl → Ctl) : State := s.setCtl p (f (s.ctlAt p))

/-- A core's register written through the stagehand firmware (R411). -/
def State.mapCore (s : State) (core : Nat) (f : Core → Core) : State := s.setCore core (f (s.coreAt core))

/-- An element of a vector replaced where there is one. -/
def vecSet (v : Vector α n) (i : Nat) (x : α) : Vector α n := if h : i < n then v.set i x h else v

/-- Whether a compute die has a port: 0 west, 1 east, 2 north, 3 south, 4 toward the control die (R391, R394, R414). -/
def diePort (die port : Nat) : Bool :=
  match port with
  | 0 => die % 4 != 0
  | 1 => die % 4 != 3
  | 2 => die / 4 != 0
  | 3 => die / 4 != 1
  | 4 => true
  | _ => false

/-- Whether an array instance exists (R414). -/
def ArrayId.exists_ (a : ArrayId) : Bool :=
  a.pkg < 4 && (match a.kind with
    | 1 | 4 => a.inst < 4608
    | 2 | 3 => a.inst < 288
    | 5 => a.inst < 512
    | 6 => if a.inst < 64 then diePort (a.inst / 8) (a.inst % 8) else a.inst < 84
    | _ => false)

/-- Whether a register of the control dies or a core's of this name exists (R2, R392, R414). -/
def DieReg.exists_ : DieReg → Bool
  | .sysqIrq p | .sdva p | .movCfg p | .fwdCfg p => p < Config.packages
  | .sysRval p h => p < Config.packages && h < Config.harts
  | .injAdr a => Sys2Proof.Machine.ArrayId.exists_ a
  | .wdlim c | .aspace c | .irqwin c | .pfvec c => c < Config.packages * Config.coresPerPackage
  | .rgn c n => c < Config.packages * Config.coresPerPackage && n < 4

/-- A write to a register without behaviour of its own (R5): reserved bits are ignored, and a register that does not exist
takes nothing. -/
def execRegisterWrite (r : DieReg) (value : Word) (s : State) : Result :=
  .next (if !Sys2Proof.Machine.DieReg.exists_ r then s else match r with
    | .sysqIrq p => s.mapCtl p fun c => { c with sysqIrq := value &&& sysIrqFields }
    | .sysRval p h => s.mapCtl p fun c => { c with sysRval := vecSet c.sysRval h value }
    | .sdva p => s.mapCtl p fun c => { c with sdva := value &&& sdvaFields }
    | .movCfg p => s.mapCtl p fun c => { c with movcfg := value &&& movcfgFields }
    | .fwdCfg p => s.mapCtl p fun c => { c with fwdcfg := value &&& 1 }
    | .injAdr a => s.setLog a { s.logAt a with injAdr := value }
    | .wdlim core => s.mapCore core fun c => { c with wdlim := value &&& 0x3F }
    | .rgn core n => s.mapCore core fun c => { c with rgn := vecSet c.rgn n (value &&& rgnFields) }
    | .aspace core => s.mapCore core fun c => { c with aspace := value &&& aspaceFields }
    | .irqwin core => s.mapCore core fun c => { c with irqwin := value &&& irqwinFields }
    | .pfvec core => s.mapCore core fun c => { c with pfvec := value &&& pfvecFields })

/-! ### Error logs and injection (R369, R370, R414) -/

/-- A write to a log's header: the count and OVF (R369). -/
def ErrorLog.writeHeader (g : ErrorLog) (value : Word) : ErrorLog :=
  { g with header := setField (value &&& 0x1FFFFFFFF) 40 4 (field g.header 40 4) }

/-- A write to an entry's word at +0x08: KIND alone. -/
def ErrorLog.writeEntry (g : ErrorLog) (j : Nat) (value : Word) : ErrorLog :=
  let e := g.entries.toList.getD j (0, 0, 0)
  { g with entries := vecSet g.entries j (e.1, setField e.2.1 56 8 (field value 56 8), e.2.2) }

/-- A write to an error log's header. -/
def execErrorLogHeaderWrite (a : ArrayId) (value : Word) (s : State) : Result :=
  .next (if Sys2Proof.Machine.ArrayId.exists_ a then s.setLog a ((s.logAt a).writeHeader value) else s)

/-- A write to an entry's KIND. -/
def execErrorLogEntryWrite (a : ArrayId) (j : Nat) (value : Word) (s : State) : Result :=
  .next (if Sys2Proof.Machine.ArrayId.exists_ a then s.setLog a ((s.logAt a).writeEntry j value) else s)

/-- A write to INJCTL (R370). -/
def execInjctlWrite (a : ArrayId) (value : Word) (s : State) : Result :=
  .next (if Sys2Proof.Machine.ArrayId.exists_ a then s.setLog a { s.logAt a with injCtl := value &&& 0xF000000000003FFF } else s)

/-! ### Power (R420) -/

/-- A write to PWRCTL. -/
def execPwrctlWrite (pkg : Nat) (value : Word) (s : State) : Result :=
  .next (s.mapCtl pkg fun c => { c with pwrctl := value &&& 0x0FFF0001 })

/-- A cap as it acts. -/
def actingCap (w : Nat) : Nat := max 1000 (min 3200 w)

/-- The cap in force: the thermal one, or CAP in capped mode. -/
def Ctl.cap (c : Ctl) : Option Nat :=
  match c.thermal with
  | some t => some t
  | none => if c.pwrctl.getLsbD 0 then some (actingCap (field c.pwrctl 16 12)) else none

/-- PWRSTAT after a window. -/
def powerStatus (old : Word) (watts duty : Nat) (limit : Bool) : Word :=
  setBit (setField (setField old 32 12 watts) 16 8 duty) 0 limit

/-- A window of 1 ms: in a capped mode the controller has allowed `duty` percent of the slots, and where withholding
every slot does not meet the cap, LIMIT is set. -/
def execPowerWindow (pkg watts duty : Nat) (met : Bool) (s : State) : Result :=
  let c := s.ctlAt pkg
  .next (match c.cap with
    | none => if watts < 4096 then s.setCtl pkg { c with pwrstat := powerStatus c.pwrstat watts 100 false } else s
    | some cap =>
      if watts < 4096 && duty ≤ 100 && met == decide (watts ≤ cap) && (met || duty == 0) then
        s.setCtl pkg { c with pwrstat := powerStatus c.pwrstat watts duty (!met) }
      else s)

/-- The junction temperature is above its limit: capped mode at the firmware's thermal cap, and THERM. -/
def execThermalCap (pkg cap : Nat) (s : State) : Result :=
  .next (s.mapCtl pkg fun c => { c with thermal := some (actingCap cap), pwrstat := setBit c.pwrstat 1 true })

/-- The junction temperature falls. -/
def execTemperatureFalls (pkg : Nat) (s : State) : Result :=
  .next (s.mapCtl pkg fun c => { c with thermal := none, pwrstat := setBit c.pwrstat 1 false })

/-! ### Links (R394-R399, R401) -/

/-- A port is numbered package × 128 + its instance number of R414. -/
def State.portAt (s : State) (n : Nat) : Port := assocGet Port.reset (n % 128) (s.ctlAt (n / 128)).ports

/-- Replacing a port. -/
def State.setPort (s : State) (n : Nat) (p : Port) : State :=
  s.mapCtl (n / 128) fun c => { c with ports := assocSet (n % 128) p c.ports }

/-- The error log's array instance of a port. -/
def portArray (n : Nat) : ArrayId := { pkg := n / 128, kind := 6, inst := n % 128 }

/-- Whether a port exists. -/
def portExists (n : Nat) : Bool := Sys2Proof.Machine.ArrayId.exists_ (portArray n)

/-- The other end of a port's link (R391, R394). -/
def peerPort (n : Nat) : Nat :=
  let p := n / 128
  let i := n % 128
  if i < 64 then
    match i % 8 with
    | 0 => n - 8 + 1
    | 1 => n + 8 - 1
    | 2 => n - 32 + 1
    | 3 => n + 32 - 1
    | _ => p * 128 + 64 + i / 8
  else if i < 72 then p * 128 + (i - 64) * 8 + 4
  else (p + (i - 72) / 4 + 1) % 4 * 128 + 72 + 4 * (2 - (i - 72) / 4) + (i - 72) % 4

/-- Both ends of a port's link in a state. -/
def State.linkTo (s : State) (n : Nat) (st : LinkState) : State :=
  let s := s.setPort n { s.portAt n with st := st }
  s.setPort (peerPort n) { s.portAt (peerPort n) with st := st }

/-- A sender that must send again every block that has not been delivered, in order (R395, R399). -/
def Port.rewound (p : Port) : Port := { p with out := [], flying := [], resend := p.flying ++ p.resend, compressor := Coder.reset }

/-- A port after its link has trained: both coders start from a reset (R398). -/
def Port.trained (p : Port) : Port :=
  { p.rewound with st := .up, replays := 0, corrupt := 0, retrains := 0, replayOf := none, stream := [], expander := Coder.reset }

/-- A link has trained. -/
def State.trained (s : State) (n : Nat) : State :=
  let s := s.setPort n (s.portAt n).trained
  s.setPort (peerPort n) (s.portAt (peerPort n)).trained

/-- An entry in a port's error log. -/
def State.logPort (s : State) (n kind : Nat) : State := s.logError (portArray n) kind (BitVec.ofNat 64 (n % 128)) (n / 128 * 4608) 15 0

/-- A link begins to retrain (R395). -/
def State.retrain (s : State) (n : Nat) : State := (s.linkTo n .retraining).logPort n 8

/-- A link finishes its initial training (R398, R401). -/
def execLinkTrained (port : Nat) (s : State) : Result :=
  .next (if portExists port && port < 512 && (s.portAt port).st == .untrained then s.trained port else s)

/-- A retrain ends (R395): good, or failed, after which it is tried again and counted again, but the third that fails in a
row takes the link down. -/
def execRetrainComplete (port : Nat) (good : Bool) (s : State) : Result :=
  .next (
    let p := s.portAt port
    if p.st != .retraining then s
    else if good then s.trained port
    else
      let n := max p.retrains (s.portAt (peerPort port)).retrains + 1
      let s := s.setPort port { p with retrains := n }
      let s := s.setPort (peerPort port) { s.portAt (peerPort port) with retrains := n }
      if n ≥ 3 then s.linkTo port .down else s.logPort port 8)

/-- One byte into a CRC-32 of the IEEE 802.3 polynomial, least significant bit first (log 21). -/
def crcByte (c : BitVec 32) (b : Byte) : BitVec 32 :=
  (List.range 8).foldl (fun c _ => if c.getLsbD 0 then (c >>> 1) ^^^ 0xEDB88320 else c >>> 1) (c ^^^ b.setWidth 32)

/-- The CRC-32 of some bytes (R395). -/
def crc32 (bs : List Byte) : BitVec 32 := ~~~(bs.foldl crcByte 0xFFFFFFFF)

/-- A port that asks for a replay of the flit that it expects. -/
def State.asksReplay (s : State) (n : Nat) : State :=
  let p := s.portAt n
  let s := (s.setPort n { p with replays := p.replays + 1, replayOf := some p.recvSeq }).logPort n 7
  if p.replays + 1 ≥ 3 then s.retrain n else s

/-- Whether an armed injection of a port's log names the port, and whether it flips bits of a flit that its code finds
(R370, R414). -/
def armedPort (n : Nat) (g : ErrorLog) : Bool := g.injCtl.getLsbD 63 && g.injAdr.toNat == n % 128
def flipsFlit (g : ErrorLog) : Bool :=
  match field g.injCtl 60 3 with
  | 0 | 2 => true
  | 1 => field g.injCtl 7 7 != field g.injCtl 0 7
  | _ => false

/-- The sender's injection meets a flit: whether the flit is spoilt, and the state with ARM cleared (R370). -/
def State.flitInjected (s : State) (sender : Nat) : Bool × State :=
  let g := s.logAt (portArray sender)
  if armedPort sender g then (flipsFlit g, s.setLog (portArray sender) { g with injCtl := setBit g.injCtl 63 false }) else (false, s)

/-- The next expected flit of a port has come: acknowledged, its bytes taken from what its sender had to send. -/
def State.flitTaken (s : State) (port n : Nat) (data : List Byte) : State :=
  let q := s.portAt (peerPort port)
  let s := s.setPort (peerPort port) { q with out := q.out.drop n, sendSeq := q.sendSeq + 1 }
  let p := s.portAt port
  s.setPort port { p with recvSeq := p.recvSeq + 1, acked := p.acked + 1, replays := 0, replayOf := none, stream := p.stream ++ data.take n }

/-- A flit is received (R395): acknowledged, ignored when it has been before, or replayed. A good one that is expected holds
the next bytes of its sender's stream, as many as there are up to 128. -/
def execFlitReceived (port seq : Nat) (data : List Byte) (crc : BitVec 32) (s : State) : Result :=
  .next (
    let p := s.portAt port
    let out := (s.portAt (peerPort port)).out
    let n := min 128 out.length
    if p.st != .up || data.length != 128 then s
    else
      let r := s.flitInjected (peerPort port)
      if crc32 data != crc || r.1 || p.recvSeq < seq then r.2.asksReplay port
      else if seq < p.recvSeq then r.2
      else if n = 0 || data.take n != out.take n then s
      else r.2.flitTaken port n data)

/-! #### Frames (R396-R399) -/

/-- What a run of tokens has put out: the bytes with whether each is literal. -/
abbrev Expanded := List (Byte × Bool)

/-- A copy of n bytes from d back in what precedes: the history, newest byte first. -/
def copyBack (hist : List Byte) (d : Nat) : Nat → Option (List Byte)
  | 0 => some []
  | n + 1 => match hist[d]? with
    | some b => (copyBack (b :: hist) d n).map (b :: ·)
    | none => none

/-- Expanding tokens, with the history newest byte first (R397, R399): none for a token that is not valid. -/
def expandTokens (t : Vector (Option Word) 64) (hist : List Byte) : Nat → List Byte → Option Expanded
  | _, [] => some []
  | 0, _ => none
  | n + 1, b :: bs =>
    if !b.getLsbD 7 then
      let lits := bs.take (b.toNat + 1)
      if lits.length != b.toNat + 1 then none
      else (expandTokens t (lits.reverse ++ hist) n (bs.drop (b.toNat + 1))).map fun r => lits.map (fun x => (x, true)) ++ r
    else if !b.getLsbD 6 then
      match t.toList.getD (b.toNat % 64) none with
      | none => none
      | some w =>
        let out := toBytes 8 w.toNat
        (expandTokens t (out.reverse ++ hist) n bs).map fun r => out.map (fun x => (x, false)) ++ r
    else
      match bs with
      | lo :: hi :: rest =>
        if hi.toNat ≥ 16 then none
        else
          match copyBack (hist.take 4096) (lo.toNat + 256 * hi.toNat) (b.toNat % 64 + 4) with
          | none => none
          | some out => (expandTokens t (out.reverse ++ hist) n rest).map fun r => out.map (fun x => (x, false)) ++ r
      | _ => none

/-- A table after a group (R398). -/
def Coder.take (c : Coder) (g : Expanded) : Coder :=
  let w := wordOf (g.map (·.1))
  if g.length = 8 && g.all (·.2) && !c.table.toList.contains (some w) then
    { c with table := vecSet c.table c.next (some w), next := (c.next + 1) % 64 }
  else c

/-- A coder after a block has been delivered (R398). -/
def Coder.after (c : Coder) (out : Expanded) : Coder :=
  let groups := (List.range (out.length / 8)).map fun i => (out.drop (8 * i)).take 8
  let c := groups.foldl Coder.take c
  let h := c.hist ++ out.map (·.1)
  { c with hist := h.drop (h.length - 4096) }

/-- What a coder makes of tokens. -/
def Coder.expand (c : Coder) (tokens : List Byte) : Option Expanded := expandTokens c.table c.hist.reverse tokens.length tokens

/-- A frame's header (R396). -/
def frameHeader (compressed : Bool) (rawlen len : Nat) : BitVec 32 :=
  BitVec.ofNat 32 ((if compressed then 2 ^ 31 else 0) + rawlen * 2 ^ 16 + len)

/-- The bytes of a frame. -/
def frameBytes (header : BitVec 32) (payload : List Byte) : List Byte := toBytes 4 header.toNat ++ payload

/-- A sender that has sent a block as a frame. -/
def Port.sends (p : Port) (block : List Byte) (header : BitVec 32) (payload : List Byte) (out : Expanded) : Port :=
  { p with
    sent := p.sent ++ [(header, payload)]
    out := p.out ++ frameBytes header payload
    flying := p.flying ++ [block]
    resend := p.resend.drop 1
    compressor := p.compressor.after out }

/-- The block as a raw frame. -/
def State.sendRaw (s : State) (port : Nat) (p : Port) (block : List Byte) : State :=
  s.setPort port (p.sends block (frameHeader false block.length block.length) block (block.map fun b => (b, true)))

/-- A sender sends a block as a frame (R396): compressed as the tokens say, when they give the block and are shorter,
otherwise raw. Blocks that must be sent again come first, in order (R395, R399). -/
def execFrameSend (port : Nat) (block tokens : List Byte) (s : State) : Result :=
  .next (
    let p := s.portAt port
    if p.st != .up || block.isEmpty || block.length > 256 || !(p.resend.head?.all (· == block)) then s
    else
      match p.compressor.expand tokens with
      | some out =>
        if out.map (·.1) = block && tokens.length < block.length then
          s.setPort port (p.sends block (frameHeader true block.length tokens.length) tokens out)
        else s.sendRaw port p block
      | none => s.sendRaw port p block)

/-- What an expander makes of a frame; none for a corrupt one (R399). -/
def Coder.frame (c : Coder) (header : BitVec 32) (payload : List Byte) : Option Expanded :=
  let rawlen := header.toNat / 2 ^ 16 % 512
  let len := header.toNat % 512
  if header &&& 0x7E00FE00 != 0 || rawlen = 0 || rawlen > 256 || payload.length != len then none
  else if header.getLsbD 31 then
    match c.expand payload with
    | some out => if out.length = rawlen then some out else none
    | none => none
  else if len = rawlen then some (payload.map fun b => (b, true))
  else none

/-- A corrupt frame (R399): it delivers nothing and is replayed from its block, both ends reset, and the third in a row
retrains the link (R395). -/
def State.corruptFrame (s : State) (n : Nat) : State :=
  let p := s.portAt n
  let s := s.setPort n { p with corrupt := p.corrupt + 1, replayOf := some p.recvSeq, stream := [], expander := Coder.reset }
  let s := (s.setPort (peerPort n) (s.portAt (peerPort n)).rewound).logPort n 7
  if p.corrupt + 1 ≥ 3 then s.retrain n else s

/-- A frame's block is delivered: it is no longer to be sent again. -/
def State.delivers (s : State) (n size : Nat) (out : Expanded) : State :=
  let q := s.portAt (peerPort n)
  let s := s.setPort (peerPort n) { q with flying := q.flying.drop 1 }
  let p := s.portAt n
  s.setPort n { p with
    delivered := p.delivered ++ out.map (·.1), expander := p.expander.after out, corrupt := 0, stream := p.stream.drop size }

/-- A frame is received (R397-R399): one that the flits have brought; or a corrupt one, from an error past the CRC. -/
def execFrameReceived (port : Nat) (header : BitVec 32) (payload : List Byte) (s : State) : Result :=
  .next (
    let p := s.portAt port
    let bytes := frameBytes header payload
    if p.st != .up then s
    else
      match p.expander.frame header payload with
      | some out => if p.stream.take bytes.length = bytes then s.delivers port bytes.length out else s
      | none => s.corruptFrame port)

/-! ### Endpoints (R389, R415, R416) -/

/-- The physical address at which the IOMMU lets an endpoint's access through (R415); one that no translation holds whole, with its
permission, has no effect. -/
def Iommu.through (m : Iommu) (a n : Nat) (write : Bool) : Option Nat :=
  match m with
  | .off => none
  | .bare => some a
  | .maps l =>
    (l.find? fun e => e.base ≤ a && a + n ≤ e.base + e.size && (if write then e.w else e.r)).map fun e => e.frame + (a - e.base)

/-- An endpoint writes memory (R416), at most 512 bytes (R415), through the IOMMU: at the page home, at scope `sys`. -/
def execEndpointWrite (pkg addr : Nat) (data : List Byte) (s : State) : Result :=
  .next (if pkg < Config.packages && data.length ≤ 512 then
      match (s.ctlAt pkg).iommu.through addr data.length true with
      | some a => s.dieWrite (.endpoint pkg) a data (some .sys)
      | none => s
    else s)

/-- An endpoint reads memory, at most 4,096 bytes (R415), through the IOMMU. -/
def execEndpointMemoryRead (pkg addr len : Nat) (s : State) : Result :=
  .next (if pkg < Config.packages && len ≤ 4096 then
      match (s.ctlAt pkg).iommu.through addr len false with
      | some a => s.dieRead (.endpoint pkg) a len 0
      | none => s
    else s)

/-- Device reads with the outstanding one answered, if the data has its length. -/
def IoReads.complete (r : IoReads) (data : List Byte) : Option IoReads :=
  match r.waiting with
  | some (key, n) => if data.length = n then some { waiting := none, got := r.got ++ [(key, data)] } else none
  | none => none

/-- A completion returns data for a read of a context (R416): of its scalar stream, or else of its vector stream. -/
def execReadCompletion (core slot : Nat) (data : List Byte) (s : State) : Result :=
  .next (let x := s.slotAt core slot
    match x.par.io.complete data, x.par.vio.complete data with
    | some io, _ => s.setSlot core slot { x with par := { x.par with io := io } }
    | none, some io => s.setSlot core slot { x with par := { x.par with vio := io } }
    | none, none => s)

/-- A completion of an AtomicOp (R389). -/
def execAtomicopCompletion (core slot : Nat) (good : Bool) (old : Word) (s : State) : Result :=
  .next (let x := s.slotAt core slot
    match x.par.request with
    | .ioAtomic op key n b c false _ =>
      s.setSlot core slot { x with par := { x.par with request := .ioAtomic op key n b c true (if good then some old else none) } }
    | _ => s)

/-! ### Boot and attestation (R417-R419) -/

/-- n bytes of an image's header from an offset. -/
def headerBytes (im : BootImage) (off n : Nat) : List Byte := (im.header.drop off).take n

/-- A number of an image's header. -/
def headerNat (im : BootImage) (off n : Nat) : Nat := ofBytes (headerBytes im off n)

/-- The bytes of an image from its header's start (R418): header, payload, LMS signature, keys. -/
def imageBytes (im : BootImage) : List Byte := im.header ++ im.payload ++ im.lmsSig ++ im.ecdsaKey ++ im.lmsKey

/-- The payload: from offset 0x120 on, as long as the word at 0x018 says (R418). -/
def payloadOf (im : BootImage) : List Byte := ((imageBytes im).drop 0x120).take (headerNat im 0x18 8)

/-- The LMS signature: at the offset and of the length that the word at 0x0B8 says (R418). -/
def lmsOf (im : BootImage) : List Byte := ((imageBytes im).drop (headerNat im 0xB8 4)).take (headerNat im 0xBC 4)

/-- A digest of 48 bytes as the bits that SHA-384 gives. -/
def digestOf (bs : List Byte) : BitVec 384 := BitVec.ofNat 384 (ofBytes bs)

/-- TYPE of an image (R418). -/
def imageType (im : BootImage) : Nat := headerNat im 6 1

/-- The first check that an image fails (R417), none when it passes all. -/
def firstFailing (im : BootImage) : Option Nat :=
  let signed := headerBytes im 0 0xC0
  let ecdsa := digestOf (headerBytes im 0x58 48)
  let lms := digestOf (headerBytes im 0x88 48)
  if !(ecdsa == Config.fusedEcdsa && lms == Config.fusedLms && Config.sha384 im.ecdsaKey == ecdsa && Config.sha384 im.lmsKey == lms) then some 1
  else if !Config.ecdsaVerifies im.ecdsaKey signed (headerBytes im 0xC0 96) then some 2
  else if !Config.lmsVerifies im.lmsKey signed (lmsOf im) then some 3
  else if Config.sha384 (payloadOf im) != digestOf (headerBytes im 0x28 48) then some 4
  else if headerNat im 8 4 < Config.fusedSvn (imageType im) then some 5
  else none

/-- MRt extended by an image (R419). -/
def Ctl.measure (c : Ctl) (im : BootImage) : Ctl :=
  let t := imageType im
  let old := c.mr.toList.getD t 0
  { c with mr := vecSet c.mr t (Config.sha384 (toBytes 48 old.toNat ++ headerBytes im 0x28 48 ++ headerBytes im 8 4)) }

/-- The ROM takes an image (R417): the next one in order is checked, measured, loaded and run, or its first failing
check recorded. -/
def State.bootImage (s : State) (p : Nat) (im : BootImage) : State :=
  let c := s.ctlAt p
  if imageType im != c.booted.length + 1 || c.booted.length ≥ 3 then s
  else
    match firstFailing im with
    | some n => s.setCtl p { c with failed := some n }
    | none =>
      let load := headerNat im 0x10 8
      let s := if load + (payloadOf im).length ≤ spBase then { s with mem := Memory.setBytes s.mem load (payloadOf im) } else s
      s.setCtl p { c.measure im with
        booted := c.booted ++ [imageType im], failed := none, entry := BitVec.ofNat 64 (headerNat im 0x20 8) }

/-- The images in order, up to the first that fails; those after it stay to be loaded. -/
def State.bootAll (s : State) (p : Nat) : List BootImage → State
  | [] => s.mapCtl p fun c => { c with images := [] }
  | im :: ims =>
    let s := s.bootImage p im
    if (s.ctlAt p).failed.isSome then s.mapCtl p fun c => { c with images := ims } else s.bootAll p ims

/-- A package at reset: its control die and its cores as at reset, with nothing of its kernels (R417). -/
def State.packageReset (s : State) (p : Nat) : State :=
  let mine (c : Nat) : Bool := pkgOf c == p
  let kid (k : Nat) : Bool := k / 1024 % 4 == p
  { s with
    slot := if mine s.coreId then Slot.reset else s.slot
    core := if mine s.coreId then Core.reset s.coreId else s.core
    cores := s.cores.filter fun c => !mine c.1
    clusterTlb := s.clusterTlb.filter fun c => c.1 / 288 != p
    kernels := s.kernels.filter fun k => !kid k.1
    flight := s.flight.filter fun f => !kid f.kid
    gangs := s.gangs.filter fun g => !g.members.any fun m => mine m.1
    ctls := assocSet p Ctl.reset s.ctls
    events := s.events.filter fun e => match e with
      | .stop r => !mine r.core
      | .unbound c _ _ => !mine c
      | .bindRefused c _ => !mine c
      | .ended k => !kid k
      | .pageFault c _ _ => !mine c
    tensors := s.tensors.filter fun t => !mine t.creator
    tops := s.tops.filter fun o => !mine o.core
    resolving := s.resolving.filter fun r => r.1 / 288 != p
    ceilings := s.ceilings.filter fun c => c.by_.pkg != p
    late := s.late.filter fun l => !mine l.core
    pages := s.pages.filter fun h => h.frame / 2 ^ 50 % 4 != p
    redirects := s.redirects.filter fun r => r.frame / 2 ^ 50 % 4 != p
    hartReads := s.hartReads.filter fun r => r.1 != p
    hartOrder := s.hartOrder.filter fun o => o.pkg != p }

/-- A package is reset, and its boot ROM runs (R417). -/
def execReset (pkg : Nat) (images : List BootImage) (s : State) : Result :=
  .next (if pkg < 4 then (s.packageReset pkg).bootAll pkg images else s)

/-- A recovery image arrives, for which the ROM waits once an image has failed (R417): it takes that image's place, and the
others follow it. -/
def execRecoveryImage (pkg : Nat) (image : BootImage) (s : State) : Result :=
  .next (
    let c := s.ctlAt pkg
    if pkg < 4 && c.failed.isSome && imageType image = c.booted.length + 1 then s.bootAll pkg (image :: c.images) else s)

/-- The control-die firmware, once it runs, releases the compute dies (R417). -/
def execComputeDieRelease (pkg : Nat) (s : State) : Result :=
  .next (s.mapCtl pkg fun c => if c.booted.contains 1 then { c with released := true } else c)

/-- The bytes of an attestation report (R419; log 11). -/
def Ctl.attestation (c : Ctl) (nonce : BitVec 384) : List Byte :=
  toBytes 48 nonce.toNat ++ c.mr.toList.flatMap (fun m => toBytes 48 m.toNat)
    ++ [1, 2, 3].flatMap (fun t => toBytes 4 (Config.fusedSvn t)) ++ toBytes 8 Config.partNumber.toNat
    ++ toBytes 48 Config.identityKeyDigest.toNat

/-- The security block returns a report (R419). -/
def execAttestationRequest (pkg : Nat) (nonce : BitVec 384) (s : State) : Result :=
  .next (s.mapCtl pkg fun c =>
    let r := c.attestation nonce
    { c with reports := c.reports ++ [(r, Config.attestationSignature r)] })

end Sys2Proof.Machine
end

