-- ==== Sys2Proof/Machine/Pages.lean ====
section
/-! DEFINITION. Pages: the prefetches, page resolutions, moves between dies, and shootdowns (R360, R382-R387, R390,
R412, R413). -/

namespace Sys2Proof.Machine

/-! ### Frames -/

/-- The die, counted over the blade, whose memory holds a physical address (R376). -/
def dieOfAddr (a : Nat) : Nat := a / 2 ^ 50 % 4 * 8 + a / 2 ^ 46 % 8

/-- The first physical address of a die's memory. -/
def dieBase (die : Nat) : Nat := die / 8 * 2 ^ 50 + die % 8 * 2 ^ 46

/-- The bytes of a page: 1 KiB for a sub-page, otherwise 2 MiB (R378). -/
def pageSize (small : Bool) : Nat := if small then 2 ^ 10 else 2 ^ 21

/-- Whether a word of memory, as a table entry, names bytes of a frame. -/
def entryNames (e : Word) (frame size : Nat) : Bool := e.getLsbD 0 && pteFrame e < frame + size && frame < pteFrame e + 2 ^ 21

/-- Whether a TLB of the blade holds a translation to bytes of a frame. -/
def State.tlbNames (s : State) (frame size : Nat) : Bool :=
  let names (t : TlbEntry) : Bool := t.frame < frame + size && frame < t.frame + pageSize t.small
  s.core.tlb.any names || s.cores.any (fun c => c.2.tlb.any names) || s.clusterTlb.any fun c => c.2.any names

/-- The stretches of memory that registers of the blade, the IOMMUs and the records of its kernels name: the rings of the system call
queues, the stretches that endpoints reach, the user queues' descriptors and rings, the kernels' launch slots, and the root tables. -/
def State.namedStretches (s : State) : List (Nat × Nat) :=
  let root (aspace : Word) : Nat × Nat := (field aspace 12 40 * 4096, 4096)
  s.ctls.flatMap (fun c => (if c.2.sysq = 0 then [] else [(field c.2.sysq 12 40 * 4096, 2 ^ 23)])
      ++ (match c.2.iommu with | .maps l => l.map fun m => (m.frame, m.size) | _ => []) ++ c.2.queues.flatMap fun q =>
      [(q.2.desc, 128), ((s.tableEntry q.2.desc).toNat, 256 * 2 ^ field (s.tableEntry (q.2.desc + 8)) 0 5)])
    ++ s.kernels.flatMap (fun k => [root k.2.aspace, (k.2.desc, 128), (k.2.slotAddr, 256)])
    ++ (root s.core.aspace :: s.cores.map fun c => root c.2.aspace)

/-- Whether a translation of a TLB, a word of memory as a table entry, a register or a kernel's record names bytes of a frame. -/
def State.frameNamed (s : State) (frame size : Nat) : Bool :=
  s.tlbNames frame size || s.mem.any (fun c => c.1 < spBase && entryNames (s.tableEntry (c.1 / 8 * 8)) frame size)
    || s.namedStretches.any fun k => k.1 < frame + size && frame < k.1 + k.2

/-- Whether a frame is one that a move may take: nothing is written there, no page home names it, nor anything else, and it is none
that a page has left while requests to it are still redirected (R383, R387). -/
def State.blankFrame (s : State) (frame size : Nat) : Bool :=
  !s.mem.any (fun c => frame ≤ c.1 && c.1 < frame + size)
    && !s.pages.any (fun p => p.frame < frame + size && frame < p.frame + pageSize p.small)
    && !s.redirects.any (fun r => r.frame < frame + size && frame < r.frame + pageSize r.small) && !s.frameNamed frame size

/-- The first frame, from number n on, that a move may take; none where none of them is. -/
def State.firstFrame (s : State) (base size : Nat) : Nat → Nat → Option Nat
  | _, 0 => none
  | n, k + 1 => if s.blankFrame (base + n * size) size then some (base + n * size) else s.firstFrame base size (n + 1) k

/-- The frame that a move to a die takes: a free value, unless it is in use (log 15); none where no frame is free. -/
def State.newFrame (s : State) (die size : Nat) : Option Nat :=
  let base := dieBase die
  let n := Config.dieMemoryBytes / size
  let f := base + Config.freeFrame s.free % n * size
  if s.blankFrame f size then some f else s.firstFrame base size 0 n

/-! ### Move requests (R385, R413) -/

/-- The page of a leaf entry, as its page home keeps it. -/
def State.pageAt (s : State) (pte frame : Nat) (small : Bool) : PageHome :=
  (s.pages.find? fun p => p.pte == pte && p.frame == frame).getD
    { pte := pte, frame := frame, small := small, st := .resident, moves := [], queue := [] }

/-- A page home in the place of one of another frame. -/
def State.rehome (s : State) (p q : PageHome) : State :=
  { s with pages := q :: s.pages.filter fun r => !(r.pte == p.pte && r.frame == p.frame) }

/-- Replacing the home of a page. -/
def State.setPage (s : State) (p : PageHome) : State := s.rehome p p

/-- A page whose shutter has expired by a time (R385). -/
def PageHome.expired (p : PageHome) (now : Nat) : PageHome :=
  match p.st with
  | .shuttered t => if t ≤ now then { p with st := .resident, moves := [] } else p
  | _ => p

/-- A page after a request for a move to a die, under MOVCFG (R385). -/
def PageHome.request (p : PageHome) (cfg : Word) (now die : Nat) : PageHome :=
  let n := field cfg 0 4
  let w := field cfg 8 28
  let recent := p.moves.filter fun t => now ≤ t + w
  match p.st with
  | .resident =>
    if n = 0 || dieOfAddr p.frame = die then p
    else if recent.length < n then { p with st := .migrating die, moves := now :: recent }
    else { p with st := .shuttered (now + field cfg 36 28) }
  | _ => p

/-- The frame of a valid leaf entry in memory space, and whether it is a sub-page's. -/
def State.leafFrame (s : State) (pte : Nat) : Option (Nat × Bool) :=
  let e := s.tableEntry pte
  let small := pteType e == 3
  match leafOf pte e small with
  | .leaf l => if e.getLsbD 0 && l.frame / 2 ^ 49 % 2 = 0 then some (l.frame, small) else none
  | _ => none

/-- A move request for the page of a leaf entry. One through a translation to a frame that the entry no longer names has no effect: no
page home there could switch the entry (DESIGN CHOICE, log 15). -/
def State.requestMove (s : State) (pte frame : Nat) (small : Bool) (die : Nat) : State :=
  if s.leafFrame pte != some (frame, small) then s
  else
    let cfg := (s.ctlAt (frame / 2 ^ 50 % 4)).movcfg
    s.setPage (((s.pageAt pte frame small).expired s.timeBase).request cfg s.timeBase die)

/-- The operating system or the migration logic asks for a move of the page whose leaf entry stands at an address (R385). -/
def execMoveRequest (pte dst : Nat) (s : State) : Result :=
  .next (match s.leafFrame pte with
    | some (f, small) => if dst < 32 then s.requestMove (s.forwarded pte) f small dst else s
    | none => s)

/-! ### Moves (R385-R387) -/

/-- A key after a frame's contents have moved. -/
def moved (old new size key : Nat) : Nat := if old ≤ key && key < old + size then new + (key - old) else key

/-- Memory with a frame's bytes moved to another frame. -/
def moveBytes (old new size : Nat) (m : List Host.Cell) : List Host.Cell :=
  (m.filter fun c => old ≤ c.1 && c.1 < old + size).foldl (fun m c => Memory.set m (moved old new size c.1) c.2)
    (m.filter fun c => !(new ≤ c.1 && c.1 < new + size))

/-- A queued request after a frame's contents have moved (R386). -/
def PageReq.moved (old new size : Nat) : PageReq → PageReq
  | .write a addr data alone => .write a (Sys2Proof.Machine.moved old new size addr) data alone
  | .read a addr n t => .read a (Sys2Proof.Machine.moved old new size addr) n t
  | .update a addr n op aq => .update a (Sys2Proof.Machine.moved old new size addr) n op aq
  | r => r

/-- A control die whose user queues are read where their words now lie (R387). -/
def Ctl.moved (old new size : Nat) (c : Ctl) : Ctl :=
  { c with queues := c.queues.map fun q => (q.1, { q.2 with desc := Sys2Proof.Machine.moved old new size q.2.desc }) }

/-- A kernel whose queue's words and launch slot are read where they now lie (R387). -/
def Kernel.moved (old new size : Nat) (k : Kernel) : Kernel :=
  { k with desc := Sys2Proof.Machine.moved old new size k.desc, slotAddr := Sys2Proof.Machine.moved old new size k.slotAddr }

/-- The parts of a write before, among and after n bytes from an address, each of which keeps its place in coherence order. -/
def WriteRec.cut (r : WriteRec) (at_ n : Nat) : List WriteRec :=
  let part (lo hi : Nat) : List WriteRec := if lo < hi then [{ r with addr := lo, first := r.first + (lo - r.addr), old := (r.old.drop (lo - r.addr)).take (hi - lo) }] else []
  let last := r.addr + r.old.length
  part r.addr (min last at_) ++ part (max r.addr at_) (min last (at_ + n)) ++ part (max r.addr (at_ + n)) last

/-- The stream of a frame reads all its bytes: correctable errors are corrected and logged (R266, R367). -/
def State.streamed (s : State) (frame size : Nat) : State :=
  let due (f : Flip) : Bool := !f.fatal && f.meets frame size
  let t := (s.flips.filter due).foldl (fun s f =>
    s.logError f.array (if f.array.kind = 5 then 4 else 1) (reportAddr (f.word * 8)) (dieOfAddr frame * 576) 15 0) s
  { t with flips := t.flips.filter fun f => !due f }

/-- A frame is streamed to another, which takes a place in the order of writes and halves: its bytes, the history of its writes, its
uncorrectable errors, and what loads are to read or have read there (R386), with protection, and with injection into the new frame
(R266, R370); what names the old frame afterwards is redirected, the stagehands' own addresses and those of leaf entries at once
(R387). -/
def State.moveFrame (s : State) (old new : Nat) (small : Bool) : State :=
  let size := pageSize small
  let s := s.streamed old size
  let inNew (k : Nat) : Bool := new ≤ k && k < new + size
  let inOld (k : Nat) : Bool := old ≤ k && k < old + size
  State.inject (n := size) (key := new) { s with
    mem := moveBytes old new size s.mem
    hist := (s.hist.flatMap fun r => (r.cut old size).flatMap fun r => r.cut new size).filterMap fun r =>
      if inNew r.addr then none
      else some { r with addr := moved old new size r.addr, was := if inOld r.addr then r.was ++ [(s.seq, homePkg r.addr)] else r.was }
    seq := s.seq + 1
    late := s.late.map fun l => { l with parts := l.parts.map fun p => (moved old new size p.1, p.2) }
    ceilings := s.ceilings.map fun c => { c with key := moved old new size c.key }
    flips := (s.flips.filter fun f => !inNew (f.word * 8)).map fun f =>
      if inOld (f.word * 8) then
        let k := moved old new size (f.word * 8)
        { f with word := k / 8, array := if f.array.kind = 5 then { f.array with pkg := k / 2 ^ 50 % 4, inst := k / 2 ^ 46 % 8 * 64 + f.array.inst % 64 }
                                         else arrayOf f.array.kind k }
      else f
    ctls := s.ctls.map fun c => (c.1, c.2.moved old new size)
    kernels := s.kernels.map fun k => (k.1, k.2.moved old new size)
    pages := s.pages.map fun p => { p with pte := moved old new size p.pte }
    redirects := { frame := old, small := small, dest := new } :: s.redirects }

/-- A leaf entry with another frame, as the migration logic of the package of that frame writes it, with protection (R266, R367). -/
def State.switchEntry (s : State) (pte new : Nat) : Act State := do
  let c : Agent := .stagehand (new / 2 ^ 50 % 4)
  s.passage c c.pkg 8 pte
  let s ← s.checkRead c pte 8
  s.storeKey c pte (toBytes 8 (setField (s.tableEntry pte) 10 42 (new / 1024)).toNat) none

/-- What a move does before its page is at its new home, by the migration logic of the new frame's package: the stream from the old
home has a way there (R395), the new frame is written whole, where the tags of its lines are read (R266), and the entry is switched. -/
def State.moveActs (s : State) (pte old new size : Nat) : Act State := do
  let c : Agent := .stagehand (new / 2 ^ 50 % 4)
  s.passage c (old / 2 ^ 50 % 4) (homeNode old) new
  let s ← s.checkWrite c new size
  s.switchEntry pte new

/-- A page at its new home: the queue is forwarded there (R385). -/
def PageHome.movedTo (p : PageHome) (new : Nat) : PageHome :=
  { p with frame := new, st := .resident, pte := moved p.frame new (pageSize p.small) p.pte
           queue := p.queue.map (PageReq.moved p.frame new (pageSize p.small)) }

/-- A move completes: the entry is switched, the frame streamed, and the page RESIDENT at its new home (R385). A move for which the
die has no frame, or whose stream waits for a link (R395), goes on; one whose stream has no route left or cannot be written to the new
frame, or whose entry cannot be switched, because it meets an error or names the page no longer, leaves the page RESIDENT where it is
(DESIGN CHOICE, log 15). -/
def execMoveComplete (pte : Nat) (s : State) : Result :=
  .next (match s.pages.find? fun p => p.pte == pte && p.moving with
    | none => s
    | some p =>
      match p.st with
      | .migrating die =>
        if s.leafFrame pte != some (p.frame, p.small) then s.setPage { p with st := .resident }
        else
          match s.newFrame die (pageSize p.small) with
          | none => s
          | some new =>
            match s.drew.moveActs pte p.frame new (pageSize p.small) with
            | .ok t => (t.moveFrame p.frame new p.small).rehome { p.movedTo new with frame := p.frame } (p.movedTo new)
            | .error (.trap t) => (s.reportCheck 0 (new / 2 ^ 50 % 4 * 4608) t).setPage { p with st := .resident }
            | .error _ => s
      | _ => s)

/-- A move is abandoned: the stream read an uncorrectable line, which is logged (R385). -/
def execMoveAbandoned (pte : Nat) (s : State) : Result :=
  .next (match s.leafFrame pte with
    | none => s
    | some (f, small) =>
      let p := s.pageAt pte f small
      match p.st, s.flips.find? fun b => b.fatal && f ≤ b.word * 8 && b.word * 8 < f + pageSize small with
      | .migrating _, some b =>
        (s.logError b.array (if b.array.kind = 5 then 5 else 2) (reportAddr (b.word * 8)) (dieOfAddr f * 576) 15 0).setPage
          { p with st := .resident }
      | _, _ => s)

/-- The shutter of a page expires (R385). -/
def execShutterExpiry (pte : Nat) (s : State) : Result :=
  .next { s with pages := s.pages.map fun p => if p.pte = pte then p.expired s.timeBase else p }

/-- A core's and its cluster's TLB without the entries that satisfy a test. -/
def State.tlbDrop (s : State) (core : Nat) (p : TlbEntry → Bool) : State :=
  let k := s.coreAt core
  let c := assocGet [] (clusterId core) s.clusterTlb
  { s.setCore core { k with tlb := k.tlb.filter fun t => !p t } with
    clusterTlb := assocSet (clusterId core) (c.filter fun t => !p t) s.clusterTlb }

/-- A redirect notice: the requester drops the translation of an address to a frame that its page has left (R387). -/
def execRedirectNotice (core va : Nat) (s : State) : Result :=
  .next (s.tlbDrop core fun t => t.hits (s.coreAt core |>.aspace.extractLsb' 52 12) va
    && s.redirects.any fun r => r.frame == t.frame && r.small == t.small)

/-! ### pfetch (R390) -/

/-- The address of the entry that a core's tables give for an address. -/
def State.entryAddr (s : State) (core va : Nat) : Nat :=
  let k := s.coreAt core
  s.forwarded ((s.trailFrom (inRegion k.rgn va) va 3 (field k.aspace 12 40 * 4096)).getLastD 0)

/-- A prefetch's translation t of an address for a read, with its TLBs loaded; none where it fails, or where its walk meets an
error (R390: it never traps). A walk waits while a link retrains (R395). -/
def State.prefetched (s : State) (a : Word) : Act (Option (Leaf × State)) :=
  if a.toNat ≥ Config.windowBase then .ok none
  else
    match s.translateFor s.self s.coreId a.toNat with
    | .ok (.leaf l, t) => .ok (if l.permits .load then some (l, t) else none)
    | .error (.block b) => .error (.block b)
    | _ => .ok none

/-- After a prefetch of an address with the translation t: a move request for the page where it asks for one (R385). -/
def State.prefetch (s : State) (move : Bool) (a : Word) (t : Option (Leaf × State)) : State :=
  match t with
  | none => s
  | some (l, u) =>
    if move && l.frame / 2 ^ 49 % 2 = 0 then u.requestMove (s.entryAddr s.coreId a.toNat) l.frame l.small (dieOf s.coreId) else u

/-- pfetch (R390). -/
def execPfetch (a : SOpd) (s : State) : Result :=
  .next (s.issue (scalarChecks [a] []) [a] .free fun s => do
    let (x, s) ← s.readS a
    let t ← s.prefetched x
    .ok ((s.prefetch false x t).advance 4))

/-- pfetch.mv (R390). -/
def execPfetchMv (a : SOpd) (s : State) : Result :=
  .next (s.issue (scalarChecks [a] []) [a] .free fun s => do
    let (x, s) ← s.readS a
    let t ← s.prefetched x
    .ok ((s.prefetch true x t).advance 4))

/-! ### Resolutions (R360) -/

/-- The completion of a resolution reaches one page-fault slot, where it records a fault on the page (R360, R382). -/
def State.noticeSlot (s : State) (page : Nat × BitVec 12 × Nat) (refused : Bool) (core pfe : Nat) : State :=
  let k := s.coreAt core
  if h : pfe < 16 then
    let e := k.pfe[pfe]
    if e.getLsbD 63 && (clusterId core, k.pfeAsid[pfe], k.pfePage[pfe]) == page then
      let e := setBit (setBit e 62 true) 61 (e.getLsbD 61 || refused)
      (s.setCore core { k with pfe := k.pfe.set pfe e }).wakeContext core k.pfeWho[pfe]
    else s
  else s

/-- The cores of the cluster of a core. -/
def clusterCores (core : Nat) : List Nat := (List.range 16).map (clusterMate core)

/-- A completion notice for a page-fault slot (R360): it reaches every slot of the cluster that faulted on the page
(R382). -/
def execCompletionNotice (core pfe : Nat) (refused : Bool) (s : State) : Result :=
  let k := s.coreAt core
  .next (if h : pfe < 16 then
      let page := (clusterId core, k.pfeAsid[pfe], k.pfePage[pfe])
      let s := { s with resolving := s.resolving.filter (· != page) }
      if (k.pfe[pfe]).getLsbD 63 then
        ((clusterCores core).flatMap fun c => (List.range 16).map fun i => (c, i)).foldl (fun s p => s.noticeSlot page refused p.1 p.2) s
      else s
    else s)

/-! ### Shootdowns (R383, R412) -/

/-- A shootdown is requested with SDVA as it stands. -/
def State.shoot (s : State) (pkg kind asid : Nat) : State :=
  let c := s.ctlAt pkg
  s.setCtl pkg { c with shootdowns := c.shootdowns ++ [{ kind := kind, asid := BitVec.ofNat 12 asid, va := c.sdva }] }

/-- SDCMD with KIND 0. -/
def execShootdownPage (pkg asid : Nat) (s : State) : Result := .next (s.shoot pkg 0 asid)
/-- SDCMD with KIND 1. -/
def execShootdownSubpage (pkg asid : Nat) (s : State) : Result := .next (s.shoot pkg 1 asid)
/-- SDCMD with KIND 2. -/
def execShootdownAsid (pkg asid : Nat) (s : State) : Result := .next (s.shoot pkg 2 asid)
/-- SDCMD with KIND 3. -/
def execShootdownAll (pkg : Nat) (s : State) : Result := .next (s.shoot pkg 3 0)

/-- Whether a shootdown covers a TLB entry. -/
def Shootdown.covers (d : Shootdown) (t : TlbEntry) : Bool :=
  match d.kind with
  | 0 => t.asid == d.asid && !t.small && t.page / 2 ^ 21 == d.va.toNat / 2 ^ 21
  | 1 => t.asid == d.asid && t.small && t.page / 2 ^ 10 == d.va.toNat / 2 ^ 10
  | 2 => t.asid == d.asid
  | _ => true

/-- The TLBs of the packages that `sys` joins to one, without the entries that satisfy a test (R383, R401). -/
def State.tlbDropAll (s : State) (pkg : Nat) (p : TlbEntry → Bool) : State :=
  let keep (core : Nat) (l : List TlbEntry) : List TlbEntry := if s.sysJoins pkg (pkgOf core) then l.filter fun t => !p t else l
  { s with
    core := { s.core with tlb := keep s.coreId s.core.tlb }
    cores := s.cores.map fun c => (c.1, { c.2 with tlb := keep c.1 c.2.tlb })
    clusterTlb := s.clusterTlb.map fun c => (c.1, keep (c.1 / 288 * 4608) c.2) }

/-- The frames that pages have left and that a translation or anything else still names: the others may be used again (R383). -/
def State.redirectsHeld (s : State) : State :=
  { s with redirects := s.redirects.filter fun r => s.frameNamed r.frame (pageSize r.small) }

/-- Whether a context has a device access outstanding. -/
def Slot.reaching (x : Slot) : Bool :=
  x.par.io.waiting.isSome || x.par.vio.waiting.isSome || (match x.par.request with | .ioAtomic _ _ _ _ _ done _ => !done | _ => false)

/-- The address space of a context: its kernel's (R377). -/
def State.spaceOf (s : State) (x : Slot) : BitVec 12 := ((s.kernelAt x.par.kid).map fun k => k.aspace.extractLsb' 52 12).getD 0

/-- Whether accesses of an address space, or of any, have been made and not performed (R383). -/
def State.reachingOut (s : State) (p : BitVec 12 → Bool) : Bool :=
  let due (k : Core) : Bool := (k.slots.map (·.2) ++ k.parked).any fun x => x.reaching && p (s.spaceOf x)
  due { s.core with slots := (s.slotId, s.slot) :: s.core.slots } || s.cores.any (fun c => due c.2)
    || s.late.any fun l => p (s.spaceOf (s.slotAt l.core l.slot))

/-- The oldest requested shootdown of a package completes, once no access through a translation that it covers is under
way (R383). -/
def execShootdownComplete (pkg : Nat) (s : State) : Result :=
  let c := s.ctlAt pkg
  .next (match c.shootdowns with
    | [] => s
    | d :: ds =>
      if s.reachingOut fun a => d.kind ≥ 3 || a == d.asid then s
      else ((s.setCtl pkg { c with shootdowns := ds, sdDone := c.sdDone + 1 }).tlbDropAll pkg d.covers).redirectsHeld)

end Sys2Proof.Machine
end

