-- ==== Sys2Proof/Machine/Fetch.lean ====
section
/-! DEFINITION. Fetching (R45, R46, R137), what is taken at an instruction boundary (R356), the passing of time (log 5)
and gangs in lock step (R208-R210). -/

namespace Sys2Proof.Machine

/-! ### Fetching -/

/-- Word i of the instruction at the PC, as the context's fetches see it (R137): until `ifence` a word may come from before a
write, but a fetch never goes back to an older value than an earlier fetch returned (DESIGN CHOICE, log 51). -/
def State.fetchWord (s : State) (i : Nat) : Act (IWord × State) := do
  let va := s.slot.pc + BitVec.ofNat 64 (4 * i)
  require (va.toNat % 4 == 0) 0x0200 va
  let (key, s) ← s.resolve false va 4 .fetch
  if isIo key then
    let (bs, s) ← s.ioLoad false key 4
    .ok ((wordOf bs).setWidth 32, s)
  else
    let s ← s.checkRead s.selfFetch key 4
    let (bs, s) := s.loadPlain s.selfFetch key 4
    .ok ((wordOf bs).setWidth 32, s)

/-- n words of the instruction at the PC, from word i on. -/
def State.fetchWords (s : State) (i : Nat) : Nat → Act (List IWord × State)
  | 0 => .ok ([], s)
  | n + 1 => do
    let (w, s) ← s.fetchWord i
    let (ws, s) ← s.fetchWords (i + 1) n
    .ok (w :: ws, s)

/-- The words of the instruction at the PC, as many as its LEN says (R45). A first word that no instruction has (R62) is judged
once they are all fetched: the spec does not say whether a fetch fault of a later word comes before it (DESIGN CHOICE, log 25). -/
def State.fetch (s : State) : Act (List IWord × State) := do
  let (w, s) ← s.fetchWord 0
  let (ws, s) ← s.fetchWords 1 (wordCount w - 1)
  .ok (w :: ws, s)

/-- The state with an instruction's words fetched (R35 ENC0-ENC2). -/
def State.holding (s : State) (ws : List IWord) : State := { s with slot := { s.slot with ir := ws } }

/-- What a fetch that does not yield an instruction does. A trap of it has no instruction whose words ENC0-ENC2 hold: DESIGN CHOICE
(log 25), all three are zero, also where some words were fetched before the one that trapped (R35). -/
def State.unfetched (s : State) : Stop → State
  | .trap t => (s.holding []).scalarTrap t
  | .block b => s.stall b
  | .hold f => f s
  | .wait t => t

/-! ### Time (log 5) -/

/-- Some ticks of the time base and some cycles pass. -/
def State.tick (s : State) : State :=
  { s with timeBase := s.timeBase + Config.freeTicks s.free, cycle := s.cycle + Config.freeCycles s.free, free := s.free + 1 }

/-- What page homes and the tree do by themselves: queued writes that stand first are performed, and generations whose gather
record had to wait go on (R241, R385, R386). -/
def State.settles (s : State) : State := s.serve.treesRetry

/-- A result with that and with time passing after it. -/
def ticked : Result → Result
  | .next s => .next s.settles.tick
  | .fault f => .fault f
  | .refused r => .refused r

/-! ### Boundaries (R356) -/

/-- What is taken at the boundary before an instruction whose own result is given (R356): its trap, then the watchdog's
expiry, then an unbind request. -/
def State.atBoundary (s : State) (r : Result) : Result :=
  match r with
  | .next t =>
    if t.trappedSince s then r
    else if s.wdDue then .next s.expire
    else if s.slot.par.unbind then .next (s.takeUnbind.getD t)
    else r
  | _ => r

/-! ### The issue slot of a core (R42, R222; log 47) -/

/-- Whether a context slot could issue: ACTIVE, or WAITING in an instruction that would now complete, as a turn of it
shows. -/
def State.readyAt (s : State) (body : State → Result) (k : Nat) : Bool :=
  match (s.slotAt s.coreId k).st with
  | .active => true
  | .waiting => match body (s.focusOn s.coreId k) with
    | .next t => t.slot.st != .waiting
    | _ => true
  | _ => false

/-- Whether slot j comes before slot k in turn, after the slot that issued last. -/
def turnBefore (last : Option Nat) (j k : Nat) : Bool :=
  match last with
  | some r => (j + 15 - r) % 16 < (k + 15 - r) % 16
  | none => false

/-- Whether the focused context may take the issue slot of its core: no other context holds it, and none that is ready
has a higher level, or the same level and an earlier turn (R222). -/
def State.mayIssue (s : State) (body : State → Result) : Bool :=
  (List.range 16).all fun j =>
    let x := s.slotAt s.coreId j
    j == s.slotId
      || (!(x.st == .active && x.par.issues)
        && !(s.readyAt body j && (s.slot.par.level < x.par.level
          || (s.slot.par.level == x.par.level && turnBefore s.core.lastIssued j s.slotId))))

/-- The focused context is given the issue slot. -/
def State.given (s : State) : State :=
  { s with core := { s.core with lastIssued := some s.slotId }, slot := { s.slot with par := { s.slot.par with issues := true } } }

/-! ### Gangs (R208-R210) -/

/-- Whether the focused context is past the instruction at which it stood in an earlier state. -/
def State.wentOn (t s : State) : Bool := t.slot.pos != s.slot.pos || !(t.slot.st == .active || t.slot.st == .waiting)

/-- The members of a gang but for one. -/
def Gang.without (g : Gang) (m : Nat × Nat) : List (Nat × Nat) := g.members.filter fun n => n != m

/-- The members of a gang: the focused context is none any more once its activation has ended. -/
def Gang.still (g : Gang) (s : State) : List (Nat × Nat) :=
  if s.slot.st == .idle then g.without (s.coreId, s.slotId) else g.members

/-- Replacing the gang of the focused context. -/
def State.mapGang (s : State) (f : Gang → Gang) : State :=
  { s with gangs := s.gangs.map fun g => if g.members.contains (s.coreId, s.slotId) then f g else g }

/-- Whether the trap that the leader took in its turn, which began in s, is one of an earlier vector instance: the instruction at
which its scalar stream stands has then not been executed (R37). -/
def State.earlierFault (t s : State) : Bool :=
  [s, s.closeBody].any fun r => match r.vectorTry with
    | .ran u => u.trappedSince s && !s.slot.seq.entries.isEmpty && u.wsWord 0x930 == t.wsWord 0x930 && u.wsWord 0x900 == t.wsWord 0x900
    | _ => false

/-- After the leader's turn, which began in s: once it is past the instruction every other member has it to execute,
and after a trap the leader is out of the gang, which disbands with the members at the next address (R210); after a trap of an earlier vector instance, or of
the fetch, they stand where the leader's scalar stream stood, with all before it executed (log 39). -/
def State.gangLed (t s : State) : State :=
  if !t.wentOn s || (t.gangOf t.coreId t.slotId).isNone then t
  else if t.trappedSince s && (t.slot.ir.isEmpty || t.earlierFault s) then (t.leaveGang t.coreId t.slotId).settleGangs
  else
    let trapped := t.trappedSince s
    let next := if trapped then s.slot.pc + BitVec.ofNat 64 (4 * t.slot.ir.length) else t.slot.pc
    (t.mapGang fun g => { g with
      members := if trapped then g.without (t.coreId, t.slotId) else g.still t
      pending := g.without (t.coreId, t.slotId)
      words := t.slot.ir
      base := s.slot.pc
      next := next
      dissolve := g.dissolve || trapped || t.slot.st == .idle }).settleGangs

/-- After another member's turn, which began in s: past the instruction it follows the leader's PC; a trap takes it out
of the gang, which disbands. -/
def State.gangFollowed (t s : State) (g : Gang) : State :=
  if !t.wentOn s || (t.gangOf t.coreId t.slotId).isNone then t
  else if t.trappedSince s then (t.leaveGang t.coreId t.slotId).settleGangs
  else
    (State.mapGang { t with slot := { t.slot with pc := g.next } } fun h =>
      { h with members := h.still t, pending := h.pending.filter fun m => m != (t.coreId, t.slotId) }).settleGangs

/-- A member of a gang has the leader's PC (R209). -/
def State.atPc (s : State) (pc : Word) : State := { s with slot := { s.slot with pc := pc } }

/-- A result changed by what follows it. -/
def thenDo (f : State → State) : Result → Result
  | .next s => .next (f s)
  | .fault r => .fault r
  | .refused r => .refused r

/-- The vector stream's turn: a trap takes the context out of its gang (R210), and a request that had its turn at a page home
leaves the queue there (R385). -/
def State.vectorAlone (s : State) : State := (s.vectorTurn.disbanding s).letThrough s (s.asRequest true)

/-- Whether an event is only the effect of an instruction that a context executes, or of its fetch. -/
def isEffect : Instr → Bool
  | .statusWrite _ => true
  | .eventCounterWrite _ _ _ => true
  | .tileTableWrite _ _ => true
  | .pageFaultSlotWrite _ _ => true
  | .undefinedEncoding => true
  | _ => false

end Sys2Proof.Machine
end

