-- ==== Sys2Proof/Machine/Vector.lean ====
section
/-! DEFINITION. The vector instructions (R140-R179): each offloads its entry, whose instance VArith, VInt, VConv,
VData and VMem give. A base form has the extended form's fields, those it lacks zero. -/

namespace Sys2Proof.Machine

/-- VLD (R170). -/
def execVld (d : VOpd) (base : BitVec 5) (off : BitVec 14) (s : State) : Result :=
  .next (s.offload 4 .ld { baseExt (.v d) (.s (SOpd.ofBits base)) Spec.zero with imm := off.signExtend 32 * 128 } true)

/-- VST (R170). -/
def execVst (d : VOpd) (base : BitVec 5) (off : BitVec 14) (s : State) : Result :=
  .next (s.offload 4 .st { baseExt (.v d) (.s (SOpd.ofBits base)) Spec.zero with imm := off.signExtend 32 * 128 } true)

/-- VADD (R144). -/
def execVadd (t : FType) (d a b : VOpd) (s : State) : Result := .next (s.offload 4 (.add t) (baseExt (.v d) (.v a) (.v b)) true)

/-- VADD_EXT (R144). -/
def execVaddExt (t : FType) (x : Ext) (s : State) : Result := .next (s.offload 12 (.add t) x false)

/-- VSUB (R144). -/
def execVsub (t : FType) (d a b : VOpd) (s : State) : Result := .next (s.offload 4 (.sub t) (baseExt (.v d) (.v a) (.v b)) true)

/-- VSUB_EXT (R144). -/
def execVsubExt (t : FType) (x : Ext) (s : State) : Result := .next (s.offload 12 (.sub t) x false)

/-- VMUL (R144). -/
def execVmul (t : FType) (d a b : VOpd) (s : State) : Result := .next (s.offload 4 (.mul t) (baseExt (.v d) (.v a) (.v b)) true)

/-- VMUL_EXT (R144). -/
def execVmulExt (t : FType) (x : Ext) (s : State) : Result := .next (s.offload 12 (.mul t) x false)

/-- VFMA (R144). -/
def execVfma (t : FType) (d a b : VOpd) (s : State) : Result := .next (s.offload 4 (.fma t) (baseExt (.v d) (.v a) (.v b)) true)

/-- VFMA_EXT (R145). -/
def execVfmaExt (t : FType) (x : Ext) (s : State) : Result := .next (s.offload 12 (.fma t) x false)

/-- VFMS (R144). -/
def execVfms (t : FType) (d a b : VOpd) (s : State) : Result := .next (s.offload 4 (.fms t) (baseExt (.v d) (.v a) (.v b)) true)

/-- VFMS_EXT (R145). -/
def execVfmsExt (t : FType) (x : Ext) (s : State) : Result := .next (s.offload 12 (.fms t) x false)

/-- VMIN (R146). -/
def execVmin (t : FType) (d a b : VOpd) (s : State) : Result := .next (s.offload 4 (.min t) (baseExt (.v d) (.v a) (.v b)) true)

/-- VMIN_EXT (R146). -/
def execVminExt (t : FType) (x : Ext) (s : State) : Result := .next (s.offload 12 (.min t) x false)

/-- VMAX (R146). -/
def execVmax (t : FType) (d a b : VOpd) (s : State) : Result := .next (s.offload 4 (.max t) (baseExt (.v d) (.v a) (.v b)) true)

/-- VMAX_EXT (R146). -/
def execVmaxExt (t : FType) (x : Ext) (s : State) : Result := .next (s.offload 12 (.max t) x false)

/-- VABS (R146). -/
def execVabs (t : FType) (d a : VOpd) (s : State) : Result := .next (s.offload 4 (.abs t) (baseExt (.v d) (.v a) Spec.zero) true)

/-- VABS_EXT (R146). -/
def execVabsExt (t : FType) (x : Ext) (s : State) : Result := .next (s.offload 12 (.abs t) x false)

/-- VNEG (R146). -/
def execVneg (t : FType) (d a : VOpd) (s : State) : Result := .next (s.offload 4 (.neg t) (baseExt (.v d) (.v a) Spec.zero) true)

/-- VNEG_EXT (R146). -/
def execVnegExt (t : FType) (x : Ext) (s : State) : Result := .next (s.offload 12 (.neg t) x false)

/-- VADD_X (R148). -/
def execVaddX (d a b : VOpd) (s : State) : Result := .next (s.offload 4 .addX (baseExt (.v d) (.v a) (.v b)) true)

/-- VADD_X_EXT (R148). -/
def execVaddXExt (x : Ext) (s : State) : Result := .next (s.offload 12 .addX x false)

/-- VSUB_X (R148). -/
def execVsubX (d a b : VOpd) (s : State) : Result := .next (s.offload 4 .subX (baseExt (.v d) (.v a) (.v b)) true)

/-- VSUB_X_EXT (R148). -/
def execVsubXExt (x : Ext) (s : State) : Result := .next (s.offload 12 .subX x false)

/-- VMUL_X (R148). -/
def execVmulX (d a b : VOpd) (s : State) : Result := .next (s.offload 4 .mulX (baseExt (.v d) (.v a) (.v b)) true)

/-- VMUL_X_EXT (R148). -/
def execVmulXExt (x : Ext) (s : State) : Result := .next (s.offload 12 .mulX x false)

/-- VDWADD (R150). -/
def execVdwadd (d a b : VOpd) (s : State) : Result := .next (s.offload 4 .dwadd (baseExt (.v d) (.v a) (.v b)) true)

/-- VDWADD_EXT (R150). -/
def execVdwaddExt (x : Ext) (s : State) : Result := .next (s.offload 12 .dwadd x false)

/-- VDWMUL (R150). -/
def execVdwmul (d a b : VOpd) (s : State) : Result := .next (s.offload 4 .dwmul (baseExt (.v d) (.v a) (.v b)) true)

/-- VDWMUL_EXT (R150). -/
def execVdwmulExt (x : Ext) (s : State) : Result := .next (s.offload 12 .dwmul x false)

/-- VDWFMA (R150). -/
def execVdwfma (d a b : VOpd) (s : State) : Result := .next (s.offload 4 .dwfma (baseExt (.v d) (.v a) (.v b)) true)

/-- VDWFMA_EXT (R150). -/
def execVdwfmaExt (x : Ext) (s : State) : Result := .next (s.offload 12 .dwfma x false)

/-- VDWROUND (R152). -/
def execVdwround (d a : VOpd) (s : State) : Result := .next (s.offload 4 .dwround (baseExt (.v d) (.v a) Spec.zero) true)

/-- VDWROUND_EXT (R152). -/
def execVdwroundExt (x : Ext) (s : State) : Result := .next (s.offload 12 .dwround x false)

/-- VCSUM (R153). -/
def execVcsum (d a : VOpd) (s : State) : Result := .next (s.offload 4 .csum (baseExt (.v d) (.v a) Spec.zero) true)

/-- VCSUM_EXT (R153). -/
def execVcsumExt (x : Ext) (s : State) : Result := .next (s.offload 12 .csum x false)

/-- VCDOT (R153). -/
def execVcdot (d a b : VOpd) (s : State) : Result := .next (s.offload 4 .cdot (baseExt (.v d) (.v a) (.v b)) true)

/-- VCDOT_EXT (R153). -/
def execVcdotExt (x : Ext) (s : State) : Result := .next (s.offload 12 .cdot x false)

/-- VSUM (R154). -/
def execVsum (t : FType) (d a : VOpd) (s : State) : Result := .next (s.offload 4 (.sum t) (baseExt (.v d) (.v a) Spec.zero) true)

/-- VSUM_EXT (R154). -/
def execVsumExt (t : FType) (x : Ext) (s : State) : Result := .next (s.offload 12 (.sum t) x false)

/-- VRMAX (R155). -/
def execVrmax (t : FType) (d a : VOpd) (s : State) : Result :=
  .next (s.offload 4 (.rmax t) (baseExt (.v d) (.v a) Spec.zero) true)

/-- VRMAX_EXT (R155). -/
def execVrmaxExt (t : FType) (x : Ext) (s : State) : Result := .next (s.offload 12 (.rmax t) x false)

/-- VRMIN (R155). -/
def execVrmin (t : FType) (d a : VOpd) (s : State) : Result :=
  .next (s.offload 4 (.rmin t) (baseExt (.v d) (.v a) Spec.zero) true)

/-- VRMIN_EXT (R155). -/
def execVrminExt (t : FType) (x : Ext) (s : State) : Result := .next (s.offload 12 (.rmin t) x false)

/-- VSCAN (R154). -/
def execVscan (t : FType) (d a : VOpd) (s : State) : Result :=
  .next (s.offload 4 (.scan t) (baseExt (.v d) (.v a) Spec.zero) true)

/-- VSCAN_EXT (R154). -/
def execVscanExt (t : FType) (x : Ext) (s : State) : Result := .next (s.offload 12 (.scan t) x false)

/-- VGMAX (R155). -/
def execVgmax (t : FType) (d a : VOpd) (g : BitVec 5) (s : State) : Result :=
  .next (s.offload 4 (.gmax t) (baseExt (.v d) (.v a) (.s (SOpd.ofBits g))) true)

/-- VGMAX_EXT (R155). -/
def execVgmaxExt (t : FType) (x : Ext) (s : State) : Result := .next (s.offload 12 (.gmax t) x false)

/-- VIADD (R156). -/
def execViadd (t : WType) (d a b : VOpd) (s : State) : Result := .next (s.offload 4 (.iadd t) (baseExt (.v d) (.v a) (.v b)) true)

/-- VIADD_EXT (R156). -/
def execViaddExt (t : WType) (x : Ext) (s : State) : Result := .next (s.offload 12 (.iadd t) x false)

/-- VISUB (R156). -/
def execVisub (t : WType) (d a b : VOpd) (s : State) : Result := .next (s.offload 4 (.isub t) (baseExt (.v d) (.v a) (.v b)) true)

/-- VISUB_EXT (R156). -/
def execVisubExt (t : WType) (x : Ext) (s : State) : Result := .next (s.offload 12 (.isub t) x false)

/-- VIMUL (R156). -/
def execVimul (t : WType) (d a b : VOpd) (s : State) : Result := .next (s.offload 4 (.imul t) (baseExt (.v d) (.v a) (.v b)) true)

/-- VIMUL_EXT (R156). -/
def execVimulExt (t : WType) (x : Ext) (s : State) : Result := .next (s.offload 12 (.imul t) x false)

/-- VIMIN (R156). -/
def execVimin (t : WType) (d a b : VOpd) (s : State) : Result := .next (s.offload 4 (.imin t) (baseExt (.v d) (.v a) (.v b)) true)

/-- VIMIN_EXT (R156). -/
def execViminExt (t : WType) (x : Ext) (s : State) : Result := .next (s.offload 12 (.imin t) x false)

/-- VIMAX (R156). -/
def execVimax (t : WType) (d a b : VOpd) (s : State) : Result := .next (s.offload 4 (.imax t) (baseExt (.v d) (.v a) (.v b)) true)

/-- VIMAX_EXT (R156). -/
def execVimaxExt (t : WType) (x : Ext) (s : State) : Result := .next (s.offload 12 (.imax t) x false)

/-- VIAND (R156). -/
def execViand (t : WType) (d a b : VOpd) (s : State) : Result := .next (s.offload 4 (.iand t) (baseExt (.v d) (.v a) (.v b)) true)

/-- VIAND_EXT (R156). -/
def execViandExt (t : WType) (x : Ext) (s : State) : Result := .next (s.offload 12 (.iand t) x false)

/-- VIOR (R156). -/
def execVior (t : WType) (d a b : VOpd) (s : State) : Result := .next (s.offload 4 (.ior t) (baseExt (.v d) (.v a) (.v b)) true)

/-- VIOR_EXT (R156). -/
def execViorExt (t : WType) (x : Ext) (s : State) : Result := .next (s.offload 12 (.ior t) x false)

/-- VIXOR (R156). -/
def execVixor (t : WType) (d a b : VOpd) (s : State) : Result := .next (s.offload 4 (.ixor t) (baseExt (.v d) (.v a) (.v b)) true)

/-- VIXOR_EXT (R156). -/
def execVixorExt (t : WType) (x : Ext) (s : State) : Result := .next (s.offload 12 (.ixor t) x false)

/-- VISLL (R156). -/
def execVisll (t : WType) (d a b : VOpd) (s : State) : Result := .next (s.offload 4 (.isll t) (baseExt (.v d) (.v a) (.v b)) true)

/-- VISLL_EXT (R156). -/
def execVisllExt (t : WType) (x : Ext) (s : State) : Result := .next (s.offload 12 (.isll t) x false)

/-- VISRL (R156). -/
def execVisrl (t : WType) (d a b : VOpd) (s : State) : Result := .next (s.offload 4 (.isrl t) (baseExt (.v d) (.v a) (.v b)) true)

/-- VISRL_EXT (R156). -/
def execVisrlExt (t : WType) (x : Ext) (s : State) : Result := .next (s.offload 12 (.isrl t) x false)

/-- VIFSL (R156). -/
def execVifsl (t : WType) (d a b : VOpd) (s : State) : Result := .next (s.offload 4 (.ifsl t) (baseExt (.v d) (.v a) (.v b)) true)

/-- VIFSL_EXT (R156). -/
def execVifslExt (t : WType) (x : Ext) (s : State) : Result := .next (s.offload 12 (.ifsl t) x false)

/-- VIFSR (R156). -/
def execVifsr (t : WType) (d a b : VOpd) (s : State) : Result := .next (s.offload 4 (.ifsr t) (baseExt (.v d) (.v a) (.v b)) true)

/-- VIFSR_EXT (R156). -/
def execVifsrExt (t : WType) (x : Ext) (s : State) : Result := .next (s.offload 12 (.ifsr t) x false)

/-- VEQ (R157). -/
def execVeq (t : FType) (d : SOpd) (a b : VOpd) (s : State) : Result :=
  .next (s.offload 4 (.eq t) (baseExt (.s d) (.v a) (.v b)) true)

/-- VEQ_EXT (R157). -/
def execVeqExt (t : FType) (x : Ext) (s : State) : Result := .next (s.offload 12 (.eq t) x false)

/-- VLT (R157). -/
def execVlt (t : FType) (d : SOpd) (a b : VOpd) (s : State) : Result :=
  .next (s.offload 4 (.lt t) (baseExt (.s d) (.v a) (.v b)) true)

/-- VLT_EXT (R157). -/
def execVltExt (t : FType) (x : Ext) (s : State) : Result := .next (s.offload 12 (.lt t) x false)

/-- VLE (R157). -/
def execVle (t : FType) (d : SOpd) (a b : VOpd) (s : State) : Result :=
  .next (s.offload 4 (.le t) (baseExt (.s d) (.v a) (.v b)) true)

/-- VLE_EXT (R157). -/
def execVleExt (t : FType) (x : Ext) (s : State) : Result := .next (s.offload 12 (.le t) x false)

/-- VNE (R157). -/
def execVne (t : FType) (d : SOpd) (a b : VOpd) (s : State) : Result :=
  .next (s.offload 4 (.ne t) (baseExt (.s d) (.v a) (.v b)) true)

/-- VNE_EXT (R157). -/
def execVneExt (t : FType) (x : Ext) (s : State) : Result := .next (s.offload 12 (.ne t) x false)

/-- VUNO (R157). -/
def execVuno (t : FType) (d : SOpd) (a b : VOpd) (s : State) : Result :=
  .next (s.offload 4 (.uno t) (baseExt (.s d) (.v a) (.v b)) true)

/-- VUNO_EXT (R157). -/
def execVunoExt (t : FType) (x : Ext) (s : State) : Result := .next (s.offload 12 (.uno t) x false)

/-- VIEQ (R158). -/
def execVieq (t : WType) (d : SOpd) (a b : VOpd) (s : State) : Result :=
  .next (s.offload 4 (.ieq t) (baseExt (.s d) (.v a) (.v b)) true)

/-- VIEQ_EXT (R158). -/
def execVieqExt (t : WType) (x : Ext) (s : State) : Result := .next (s.offload 12 (.ieq t) x false)

/-- VILT (R158). -/
def execVilt (t : WType) (d : SOpd) (a b : VOpd) (s : State) : Result :=
  .next (s.offload 4 (.ilt t) (baseExt (.s d) (.v a) (.v b)) true)

/-- VILT_EXT (R158). -/
def execViltExt (t : WType) (x : Ext) (s : State) : Result := .next (s.offload 12 (.ilt t) x false)

/-- VSEL (R159). -/
def execVsel (x : Ext) (s : State) : Result := .next (s.offload 12 .sel x false)

/-- VCVT (R161). -/
def execVcvt (d a b : VOpd) (s : State) : Result := .next (s.offload 4 .cvt (baseExt (.v d) (.v a) (.v b)) true)

/-- VCVT_EXT (R162). -/
def execVcvtExt (x : Ext) (s : State) : Result := .next (s.offload 12 .cvt x false)

/-- VCVTI (R163). -/
def execVcvti (d a : VOpd) (s : State) : Result := .next (s.offload 4 .cvti (baseExt (.v d) (.v a) Spec.zero) true)

/-- VCVTI_EXT (R163). -/
def execVcvtiExt (x : Ext) (s : State) : Result := .next (s.offload 12 .cvti x false)

/-- VCVTF (R163). -/
def execVcvtf (d a : VOpd) (s : State) : Result := .next (s.offload 4 .cvtf (baseExt (.v d) (.v a) Spec.zero) true)

/-- VCVTF_EXT (R163). -/
def execVcvtfExt (x : Ext) (s : State) : Result := .next (s.offload 12 .cvtf x false)

/-- VPACK (R163). -/
def execVpack (d a b : VOpd) (s : State) : Result := .next (s.offload 4 .pack (baseExt (.v d) (.v a) (.v b)) true)

/-- VPACK_EXT (R163). -/
def execVpackExt (x : Ext) (s : State) : Result := .next (s.offload 12 .pack x false)

/-- VRCP (R97). -/
def execVrcp (d a : VOpd) (s : State) : Result := .next (s.offload 4 .rcp (baseExt (.v d) (.v a) Spec.zero) true)

/-- VRCP_EXT (R164). -/
def execVrcpExt (x : Ext) (s : State) : Result := .next (s.offload 12 .rcp x false)

/-- VRSQ (R98). -/
def execVrsq (d a : VOpd) (s : State) : Result := .next (s.offload 4 .rsq (baseExt (.v d) (.v a) Spec.zero) true)

/-- VRSQ_EXT (R164). -/
def execVrsqExt (x : Ext) (s : State) : Result := .next (s.offload 12 .rsq x false)

/-- VEXP2 (R165). -/
def execVexp2 (d a : VOpd) (s : State) : Result := .next (s.offload 4 .exp2 (baseExt (.v d) (.v a) Spec.zero) true)

/-- VEXP2_EXT (R164). -/
def execVexp2Ext (x : Ext) (s : State) : Result := .next (s.offload 12 .exp2 x false)

/-- VMOV (R166). -/
def execVmov (d a : VOpd) (s : State) : Result := .next (s.offload 4 .mov (baseExt (.v d) (.v a) Spec.zero) true)

/-- VMOV_EXT (R166). -/
def execVmovExt (x : Ext) (s : State) : Result := .next (s.offload 12 .mov x false)

/-- VBCST (R166). -/
def execVbcst (t : WType) (d : VOpd) (a : SOpd) (s : State) : Result :=
  .next (s.offload 4 (.bcst t) (baseExt (.v d) (.s a) Spec.zero) true)

/-- VBCST_EXT (R166). -/
def execVbcstExt (t : WType) (x : Ext) (s : State) : Result := .next (s.offload 12 (.bcst t) x false)

/-- VBCST_LITERAL (R166). -/
def execVbcstLiteral (t : WType) (x : Ext) (lit : Word) (s : State) : Result := .next (s.offload 20 (.bcst t) x false (some lit))

/-- VPERM (R166). -/
def execVperm (t : WType) (d a b : VOpd) (s : State) : Result := .next (s.offload 4 (.perm t) (baseExt (.v d) (.v a) (.v b)) true)

/-- VPERM_EXT (R166). -/
def execVpermExt (t : WType) (x : Ext) (s : State) : Result := .next (s.offload 12 (.perm t) x false)

/-- VINS (R166). -/
def execVins (t : WType) (d : VOpd) (a b : SOpd) (s : State) : Result :=
  .next (s.offload 4 (.ins t) (baseExt (.v d) (.s a) (.s b)) true)

/-- VINS_EXT (R166). -/
def execVinsExt (t : WType) (x : Ext) (s : State) : Result := .next (s.offload 12 (.ins t) x false)

/-- VEXT (R166). -/
def execVext (t : WType) (d : SOpd) (a : VOpd) (b : SOpd) (s : State) : Result :=
  .next (s.offload 4 (.ext t) (baseExt (.s d) (.v a) (.s b)) true)

/-- VEXT_EXT (R166). -/
def execVextExt (t : WType) (x : Ext) (s : State) : Result := .next (s.offload 12 (.ext t) x false)

/-- VCOMP (R167). -/
def execVcomp (d a : VOpd) (b : SOpd) (s : State) : Result := .next (s.offload 4 .comp (baseExt (.v d) (.v a) (.s b)) true)

/-- VCOMP_EXT (R167). -/
def execVcompExt (x : Ext) (s : State) : Result := .next (s.offload 12 .comp x false)

/-- VEXPD (R167). -/
def execVexpd (d a : VOpd) (b : SOpd) (s : State) : Result := .next (s.offload 4 .expd (baseExt (.v d) (.v a) (.s b)) true)

/-- VEXPD_EXT (R167). -/
def execVexpdExt (x : Ext) (s : State) : Result := .next (s.offload 12 .expd x false)

/-- VKSORT (R168). -/
def execVksort (d a : VOpd) (s : State) : Result := .next (s.offload 4 .ksort (baseExt (.v d) (.v a) Spec.zero) true)

/-- VKSORT_EXT (R168). -/
def execVksortExt (x : Ext) (s : State) : Result := .next (s.offload 12 .ksort x false)

/-- VSEARCH (R168). -/
def execVsearch (d a b : VOpd) (s : State) : Result := .next (s.offload 4 .search (baseExt (.v d) (.v a) (.v b)) true)

/-- VSEARCH_EXT (R168). -/
def execVsearchExt (x : Ext) (s : State) : Result := .next (s.offload 12 .search x false)

/-- VCONF (R168). -/
def execVconf (d a : VOpd) (s : State) : Result := .next (s.offload 4 .conf (baseExt (.v d) (.v a) Spec.zero) true)

/-- VCONF_EXT (R168). -/
def execVconfExt (x : Ext) (s : State) : Result := .next (s.offload 12 .conf x false)

/-- VLDX (R172). -/
def execVldx (x : Ext) (s : State) : Result := .next (s.offload 12 .ldx x false)

/-- VSTX (R172). -/
def execVstx (x : Ext) (s : State) : Result := .next (s.offload 12 .stx x false)

/-- VLDS (R172). -/
def execVlds (x : Ext) (s : State) : Result := .next (s.offload 12 .lds x false)

/-- VSTS (R172). -/
def execVsts (x : Ext) (s : State) : Result := .next (s.offload 12 .sts x false)

/-- VLDU (R173). -/
def execVldu (x : Ext) (s : State) : Result := .next (s.offload 12 .ldu x false)

/-- VSTU (R173). -/
def execVstu (x : Ext) (s : State) : Result := .next (s.offload 12 .stu x false)

/-- VSTM (R173). -/
def execVstm (x : Ext) (s : State) : Result := .next (s.offload 12 .stm x false)

/-- VLDT (R174). -/
def execVldt (x : Ext) (s : State) : Result := .next (s.offload 12 .ldt x false)

/-- VSTT (R174). -/
def execVstt (x : Ext) (s : State) : Result := .next (s.offload 12 .stt x false)

/-- VPADD (R147). -/
def execVpadd (e : F8Type) (d a b : VOpd) (s : State) : Result :=
  .next (s.offload 4 (.padd e) (baseExt (.v d) (.v a) (.v b)) true)

/-- VPADD_EXT (R147). -/
def execVpaddExt (e : F8Type) (x : Ext) (s : State) : Result := .next (s.offload 12 (.padd e) x false)

/-- VPSUB (R147). -/
def execVpsub (e : F8Type) (d a b : VOpd) (s : State) : Result :=
  .next (s.offload 4 (.psub e) (baseExt (.v d) (.v a) (.v b)) true)

/-- VPSUB_EXT (R147). -/
def execVpsubExt (e : F8Type) (x : Ext) (s : State) : Result := .next (s.offload 12 (.psub e) x false)

/-- VPMUL (R147). -/
def execVpmul (e : F8Type) (d a b : VOpd) (s : State) : Result :=
  .next (s.offload 4 (.pmul e) (baseExt (.v d) (.v a) (.v b)) true)

/-- VPMUL_EXT (R147). -/
def execVpmulExt (e : F8Type) (x : Ext) (s : State) : Result := .next (s.offload 12 (.pmul e) x false)

/-- VPFMA (R147). -/
def execVpfma (e : F8Type) (d a b : VOpd) (s : State) : Result :=
  .next (s.offload 4 (.pfma e) (baseExt (.v d) (.v a) (.v b)) true)

/-- VPFMA_EXT (R147). -/
def execVpfmaExt (e : F8Type) (x : Ext) (s : State) : Result := .next (s.offload 12 (.pfma e) x false)

end Sys2Proof.Machine
end

