-- ==== Sys2Proof/Machine/Dispatch.lean ====
section
/-! DEFINITION. The meaning of every instruction and event, one arm per constructor of Instr. -/

namespace Sys2Proof.Machine

/-- One instruction of the focused context, or one event. -/
def exec (i : Instr) (s : State) : Host.Outcome State Fault Refusal :=
  match i with
  | .add d a b => Sys2Proof.Machine.execAdd d a b s
  | .sub d a b => Sys2Proof.Machine.execSub d a b s
  | .mul d a b => Sys2Proof.Machine.execMul d a b s
  | .mulh d a b => Sys2Proof.Machine.execMulh d a b s
  | .div d a b => Sys2Proof.Machine.execDiv d a b s
  | .divu d a b => Sys2Proof.Machine.execDivu d a b s
  | .rem d a b => Sys2Proof.Machine.execRem d a b s
  | .remu d a b => Sys2Proof.Machine.execRemu d a b s
  | .and d a b => Sys2Proof.Machine.execAnd d a b s
  | .or d a b => Sys2Proof.Machine.execOr d a b s
  | .xor d a b => Sys2Proof.Machine.execXor d a b s
  | .andn d a b => Sys2Proof.Machine.execAndn d a b s
  | .sll d a b => Sys2Proof.Machine.execSll d a b s
  | .srl d a b => Sys2Proof.Machine.execSrl d a b s
  | .sra d a b => Sys2Proof.Machine.execSra d a b s
  | .ror d a b => Sys2Proof.Machine.execRor d a b s
  | .min d a b => Sys2Proof.Machine.execMin d a b s
  | .max d a b => Sys2Proof.Machine.execMax d a b s
  | .slt d a b => Sys2Proof.Machine.execSlt d a b s
  | .sltu d a b => Sys2Proof.Machine.execSltu d a b s
  | .seq d a b => Sys2Proof.Machine.execSeq d a b s
  | .sne d a b => Sys2Proof.Machine.execSne d a b s
  | .cmovz d a b => Sys2Proof.Machine.execCmovz d a b s
  | .cmovn d a b => Sys2Proof.Machine.execCmovn d a b s
  | .addsat d a b => Sys2Proof.Machine.execAddsat d a b s
  | .popc d a => Sys2Proof.Machine.execPopc d a s
  | .clz d a => Sys2Proof.Machine.execClz d a s
  | .ctz d a => Sys2Proof.Machine.execCtz d a s
  | .brev d a => Sys2Proof.Machine.execBrev d a s
  | .bswap d a => Sys2Proof.Machine.execBswap d a s
  | .mkm d a b => Sys2Proof.Machine.execMkm d a b s
  | .fsli d a b c => Sys2Proof.Machine.execFsli d a b c s
  | .fsri d a b c => Sys2Proof.Machine.execFsri d a b c s
  | .addi d a imm => Sys2Proof.Machine.execAddi d a imm s
  | .addiLiteral d a lit => Sys2Proof.Machine.execAddiLiteral d a lit s
  | .andi d a imm => Sys2Proof.Machine.execAndi d a imm s
  | .ori d a imm => Sys2Proof.Machine.execOri d a imm s
  | .xori d a imm => Sys2Proof.Machine.execXori d a imm s
  | .slti d a imm => Sys2Proof.Machine.execSlti d a imm s
  | .slli d a c => Sys2Proof.Machine.execSlli d a c s
  | .srli d a c => Sys2Proof.Machine.execSrli d a c s
  | .srai d a c => Sys2Proof.Machine.execSrai d a c s
  | .bfx d a p wm1 x => Sys2Proof.Machine.execBfx d a p wm1 x s
  | .bfi d a p wm1 => Sys2Proof.Machine.execBfi d a p wm1 s
  | .lpc d page => Sys2Proof.Machine.execLpc d page s
  | .jalr d a imm => Sys2Proof.Machine.execJalr d a imm s
  | .mfcr d cr => Sys2Proof.Machine.execMfcr d cr s
  | .mtcr cr a => Sys2Proof.Machine.execMtcr cr a s
  | .vloop k n => Sys2Proof.Machine.execVloop k n s
  | .vloopRegister k a => Sys2Proof.Machine.execVloopRegister k a s
  | .beq a b disp => Sys2Proof.Machine.execBeq a b disp s
  | .bne a b disp => Sys2Proof.Machine.execBne a b disp s
  | .blt a b disp => Sys2Proof.Machine.execBlt a b disp s
  | .bge a b disp => Sys2Proof.Machine.execBge a b disp s
  | .bltu a b disp => Sys2Proof.Machine.execBltu a b disp s
  | .bgeu a b disp => Sys2Proof.Machine.execBgeu a b disp s
  | .bany a b disp => Sys2Proof.Machine.execBany a b disp s
  | .ball a b disp => Sys2Proof.Machine.execBall a b disp s
  | .bnone a b disp => Sys2Proof.Machine.execBnone a b disp s
  | .j disp => Sys2Proof.Machine.execJ disp s
  | .jal disp => Sys2Proof.Machine.execJal disp s
  | .cue pay => Sys2Proof.Machine.execCue pay s
  | .ldB d base off => Sys2Proof.Machine.execLdB d base off s
  | .ldBz d base off => Sys2Proof.Machine.execLdBz d base off s
  | .ldH d base off => Sys2Proof.Machine.execLdH d base off s
  | .ldHz d base off => Sys2Proof.Machine.execLdHz d base off s
  | .ldW d base off => Sys2Proof.Machine.execLdW d base off s
  | .ldWz d base off => Sys2Proof.Machine.execLdWz d base off s
  | .ldD d base off => Sys2Proof.Machine.execLdD d base off s
  | .ldInv d base off => Sys2Proof.Machine.execLdInv d base off s
  | .stB d base off => Sys2Proof.Machine.execStB d base off s
  | .stH d base off => Sys2Proof.Machine.execStH d base off s
  | .stW d base off => Sys2Proof.Machine.execStW d base off s
  | .stD d base off => Sys2Proof.Machine.execStD d base off s
  | .vld d base off => Sys2Proof.Machine.execVld d base off s
  | .vst d base off => Sys2Proof.Machine.execVst d base off s
  | .yield => Sys2Proof.Machine.execYield s
  | .wait d a => Sys2Proof.Machine.execWait d a s
  | .endAct => Sys2Proof.Machine.execEndAct s
  | .trap code => Sys2Proof.Machine.execTrap code s
  | .upret => Sys2Proof.Machine.execUpret s
  | .wpx a => Sys2Proof.Machine.execWpx a s
  | .ifence => Sys2Proof.Machine.execIfence s
  | .ldxW x => Sys2Proof.Machine.execLdxW x s
  | .ldxD x => Sys2Proof.Machine.execLdxD x s
  | .stxW x => Sys2Proof.Machine.execStxW x s
  | .stxD x => Sys2Proof.Machine.execStxD x s
  | .amaddW x => Sys2Proof.Machine.execAmaddW x s
  | .amaddD x => Sys2Proof.Machine.execAmaddD x s
  | .amminW x => Sys2Proof.Machine.execAmminW x s
  | .amminD x => Sys2Proof.Machine.execAmminD x s
  | .ammaxW x => Sys2Proof.Machine.execAmmaxW x s
  | .ammaxD x => Sys2Proof.Machine.execAmmaxD x s
  | .amcasW x => Sys2Proof.Machine.execAmcasW x s
  | .amcasD x => Sys2Proof.Machine.execAmcasD x s
  | .amandD x => Sys2Proof.Machine.execAmandD x s
  | .amorD x => Sys2Proof.Machine.execAmorD x s
  | .amxorD x => Sys2Proof.Machine.execAmxorD x s
  | .amswapD x => Sys2Proof.Machine.execAmswapD x s
  | .amldD x => Sys2Proof.Machine.execAmldD x s
  | .amstD x => Sys2Proof.Machine.execAmstD x s
  | .amfaddW x => Sys2Proof.Machine.execAmfaddW x s
  | .curtn x => Sys2Proof.Machine.execCurtn x s
  | .curtnRel x => Sys2Proof.Machine.execCurtnRel x s
  | .curtnAcq x => Sys2Proof.Machine.execCurtnAcq x s
  | .succgo x => Sys2Proof.Machine.execSuccgo x s
  | .predwait x => Sys2Proof.Machine.execPredwait x s
  | .barArr x => Sys2Proof.Machine.execBarArr x s
  | .barWait x => Sys2Proof.Machine.execBarWait x s
  | .barAdd x => Sys2Proof.Machine.execBarAdd x s
  | .ownGive x => Sys2Proof.Machine.execOwnGive x s
  | .send x => Sys2Proof.Machine.execSend x s
  | .sendh x => Sys2Proof.Machine.execSendh x s
  | .sendk x => Sys2Proof.Machine.execSendk x s
  | .spawn x => Sys2Proof.Machine.execSpawn x s
  | .gainadd x => Sys2Proof.Machine.execGainadd x s
  | .resadd x => Sys2Proof.Machine.execResadd x s
  | .gang x => Sys2Proof.Machine.execGang x s
  | .ungang x => Sys2Proof.Machine.execUngang x s
  | .myid x => Sys2Proof.Machine.execMyid x s
  | .trcAdd x => Sys2Proof.Machine.execTrcAdd x s
  | .trcGet x => Sys2Proof.Machine.execTrcGet x s
  | .kmap x => Sys2Proof.Machine.execKmap x s
  | .defh x => Sys2Proof.Machine.execDefh x s
  | .lclaim d => Sys2Proof.Machine.execLclaim d s
  | .lfree => Sys2Proof.Machine.execLfree s
  | .lpoll d => Sys2Proof.Machine.execLpoll d s
  | .vadd t d a b => Sys2Proof.Machine.execVadd t d a b s
  | .vaddExt t x => Sys2Proof.Machine.execVaddExt t x s
  | .vsub t d a b => Sys2Proof.Machine.execVsub t d a b s
  | .vsubExt t x => Sys2Proof.Machine.execVsubExt t x s
  | .vmul t d a b => Sys2Proof.Machine.execVmul t d a b s
  | .vmulExt t x => Sys2Proof.Machine.execVmulExt t x s
  | .vfma t d a b => Sys2Proof.Machine.execVfma t d a b s
  | .vfmaExt t x => Sys2Proof.Machine.execVfmaExt t x s
  | .vfms t d a b => Sys2Proof.Machine.execVfms t d a b s
  | .vfmsExt t x => Sys2Proof.Machine.execVfmsExt t x s
  | .vmin t d a b => Sys2Proof.Machine.execVmin t d a b s
  | .vminExt t x => Sys2Proof.Machine.execVminExt t x s
  | .vmax t d a b => Sys2Proof.Machine.execVmax t d a b s
  | .vmaxExt t x => Sys2Proof.Machine.execVmaxExt t x s
  | .vabs t d a => Sys2Proof.Machine.execVabs t d a s
  | .vabsExt t x => Sys2Proof.Machine.execVabsExt t x s
  | .vneg t d a => Sys2Proof.Machine.execVneg t d a s
  | .vnegExt t x => Sys2Proof.Machine.execVnegExt t x s
  | .vaddX d a b => Sys2Proof.Machine.execVaddX d a b s
  | .vaddXExt x => Sys2Proof.Machine.execVaddXExt x s
  | .vsubX d a b => Sys2Proof.Machine.execVsubX d a b s
  | .vsubXExt x => Sys2Proof.Machine.execVsubXExt x s
  | .vmulX d a b => Sys2Proof.Machine.execVmulX d a b s
  | .vmulXExt x => Sys2Proof.Machine.execVmulXExt x s
  | .vdwadd d a b => Sys2Proof.Machine.execVdwadd d a b s
  | .vdwaddExt x => Sys2Proof.Machine.execVdwaddExt x s
  | .vdwmul d a b => Sys2Proof.Machine.execVdwmul d a b s
  | .vdwmulExt x => Sys2Proof.Machine.execVdwmulExt x s
  | .vdwfma d a b => Sys2Proof.Machine.execVdwfma d a b s
  | .vdwfmaExt x => Sys2Proof.Machine.execVdwfmaExt x s
  | .vdwround d a => Sys2Proof.Machine.execVdwround d a s
  | .vdwroundExt x => Sys2Proof.Machine.execVdwroundExt x s
  | .vcsum d a => Sys2Proof.Machine.execVcsum d a s
  | .vcsumExt x => Sys2Proof.Machine.execVcsumExt x s
  | .vcdot d a b => Sys2Proof.Machine.execVcdot d a b s
  | .vcdotExt x => Sys2Proof.Machine.execVcdotExt x s
  | .vsum t d a => Sys2Proof.Machine.execVsum t d a s
  | .vsumExt t x => Sys2Proof.Machine.execVsumExt t x s
  | .vrmax t d a => Sys2Proof.Machine.execVrmax t d a s
  | .vrmaxExt t x => Sys2Proof.Machine.execVrmaxExt t x s
  | .vrmin t d a => Sys2Proof.Machine.execVrmin t d a s
  | .vrminExt t x => Sys2Proof.Machine.execVrminExt t x s
  | .vscan t d a => Sys2Proof.Machine.execVscan t d a s
  | .vscanExt t x => Sys2Proof.Machine.execVscanExt t x s
  | .vgmax t d a g => Sys2Proof.Machine.execVgmax t d a g s
  | .vgmaxExt t x => Sys2Proof.Machine.execVgmaxExt t x s
  | .viadd t d a b => Sys2Proof.Machine.execViadd t d a b s
  | .viaddExt t x => Sys2Proof.Machine.execViaddExt t x s
  | .visub t d a b => Sys2Proof.Machine.execVisub t d a b s
  | .visubExt t x => Sys2Proof.Machine.execVisubExt t x s
  | .vimul t d a b => Sys2Proof.Machine.execVimul t d a b s
  | .vimulExt t x => Sys2Proof.Machine.execVimulExt t x s
  | .vimin t d a b => Sys2Proof.Machine.execVimin t d a b s
  | .viminExt t x => Sys2Proof.Machine.execViminExt t x s
  | .vimax t d a b => Sys2Proof.Machine.execVimax t d a b s
  | .vimaxExt t x => Sys2Proof.Machine.execVimaxExt t x s
  | .viand t d a b => Sys2Proof.Machine.execViand t d a b s
  | .viandExt t x => Sys2Proof.Machine.execViandExt t x s
  | .vior t d a b => Sys2Proof.Machine.execVior t d a b s
  | .viorExt t x => Sys2Proof.Machine.execViorExt t x s
  | .vixor t d a b => Sys2Proof.Machine.execVixor t d a b s
  | .vixorExt t x => Sys2Proof.Machine.execVixorExt t x s
  | .visll t d a b => Sys2Proof.Machine.execVisll t d a b s
  | .visllExt t x => Sys2Proof.Machine.execVisllExt t x s
  | .visrl t d a b => Sys2Proof.Machine.execVisrl t d a b s
  | .visrlExt t x => Sys2Proof.Machine.execVisrlExt t x s
  | .vifsl t d a b => Sys2Proof.Machine.execVifsl t d a b s
  | .vifslExt t x => Sys2Proof.Machine.execVifslExt t x s
  | .vifsr t d a b => Sys2Proof.Machine.execVifsr t d a b s
  | .vifsrExt t x => Sys2Proof.Machine.execVifsrExt t x s
  | .veq t d a b => Sys2Proof.Machine.execVeq t d a b s
  | .veqExt t x => Sys2Proof.Machine.execVeqExt t x s
  | .vlt t d a b => Sys2Proof.Machine.execVlt t d a b s
  | .vltExt t x => Sys2Proof.Machine.execVltExt t x s
  | .vle t d a b => Sys2Proof.Machine.execVle t d a b s
  | .vleExt t x => Sys2Proof.Machine.execVleExt t x s
  | .vne t d a b => Sys2Proof.Machine.execVne t d a b s
  | .vneExt t x => Sys2Proof.Machine.execVneExt t x s
  | .vuno t d a b => Sys2Proof.Machine.execVuno t d a b s
  | .vunoExt t x => Sys2Proof.Machine.execVunoExt t x s
  | .vieq t d a b => Sys2Proof.Machine.execVieq t d a b s
  | .vieqExt t x => Sys2Proof.Machine.execVieqExt t x s
  | .vilt t d a b => Sys2Proof.Machine.execVilt t d a b s
  | .viltExt t x => Sys2Proof.Machine.execViltExt t x s
  | .vsel x => Sys2Proof.Machine.execVsel x s
  | .vcvt d a b => Sys2Proof.Machine.execVcvt d a b s
  | .vcvtExt x => Sys2Proof.Machine.execVcvtExt x s
  | .vcvti d a => Sys2Proof.Machine.execVcvti d a s
  | .vcvtiExt x => Sys2Proof.Machine.execVcvtiExt x s
  | .vcvtf d a => Sys2Proof.Machine.execVcvtf d a s
  | .vcvtfExt x => Sys2Proof.Machine.execVcvtfExt x s
  | .vpack d a b => Sys2Proof.Machine.execVpack d a b s
  | .vpackExt x => Sys2Proof.Machine.execVpackExt x s
  | .vrcp d a => Sys2Proof.Machine.execVrcp d a s
  | .vrcpExt x => Sys2Proof.Machine.execVrcpExt x s
  | .vrsq d a => Sys2Proof.Machine.execVrsq d a s
  | .vrsqExt x => Sys2Proof.Machine.execVrsqExt x s
  | .vexp2 d a => Sys2Proof.Machine.execVexp2 d a s
  | .vexp2Ext x => Sys2Proof.Machine.execVexp2Ext x s
  | .vmov d a => Sys2Proof.Machine.execVmov d a s
  | .vmovExt x => Sys2Proof.Machine.execVmovExt x s
  | .vbcst t d a => Sys2Proof.Machine.execVbcst t d a s
  | .vbcstExt t x => Sys2Proof.Machine.execVbcstExt t x s
  | .vbcstLiteral t x lit => Sys2Proof.Machine.execVbcstLiteral t x lit s
  | .vperm t d a b => Sys2Proof.Machine.execVperm t d a b s
  | .vpermExt t x => Sys2Proof.Machine.execVpermExt t x s
  | .vins t d a b => Sys2Proof.Machine.execVins t d a b s
  | .vinsExt t x => Sys2Proof.Machine.execVinsExt t x s
  | .vext t d a b => Sys2Proof.Machine.execVext t d a b s
  | .vextExt t x => Sys2Proof.Machine.execVextExt t x s
  | .vcomp d a b => Sys2Proof.Machine.execVcomp d a b s
  | .vcompExt x => Sys2Proof.Machine.execVcompExt x s
  | .vexpd d a b => Sys2Proof.Machine.execVexpd d a b s
  | .vexpdExt x => Sys2Proof.Machine.execVexpdExt x s
  | .vksort d a => Sys2Proof.Machine.execVksort d a s
  | .vksortExt x => Sys2Proof.Machine.execVksortExt x s
  | .vsearch d a b => Sys2Proof.Machine.execVsearch d a b s
  | .vsearchExt x => Sys2Proof.Machine.execVsearchExt x s
  | .vconf d a => Sys2Proof.Machine.execVconf d a s
  | .vconfExt x => Sys2Proof.Machine.execVconfExt x s
  | .vldx x => Sys2Proof.Machine.execVldx x s
  | .vstx x => Sys2Proof.Machine.execVstx x s
  | .vlds x => Sys2Proof.Machine.execVlds x s
  | .vsts x => Sys2Proof.Machine.execVsts x s
  | .vldu x => Sys2Proof.Machine.execVldu x s
  | .vstu x => Sys2Proof.Machine.execVstu x s
  | .vstm x => Sys2Proof.Machine.execVstm x s
  | .vldt x => Sys2Proof.Machine.execVldt x s
  | .vstt x => Sys2Proof.Machine.execVstt x s
  | .vpadd e d a b => Sys2Proof.Machine.execVpadd e d a b s
  | .vpaddExt e x => Sys2Proof.Machine.execVpaddExt e x s
  | .vpsub e d a b => Sys2Proof.Machine.execVpsub e d a b s
  | .vpsubExt e x => Sys2Proof.Machine.execVpsubExt e x s
  | .vpmul e d a b => Sys2Proof.Machine.execVpmul e d a b s
  | .vpmulExt e x => Sys2Proof.Machine.execVpmulExt e x s
  | .vpfma e d a b => Sys2Proof.Machine.execVpfma e d a b s
  | .vpfmaExt e x => Sys2Proof.Machine.execVpfmaExt e x s
  | .tnew x => Sys2Proof.Machine.execTnew x s
  | .tfree x => Sys2Proof.Machine.execTfree x s
  | .twiden x => Sys2Proof.Machine.execTwiden x s
  | .tget x => Sys2Proof.Machine.execTget x s
  | .tset x => Sys2Proof.Machine.execTset x s
  | .tfill x => Sys2Proof.Machine.execTfill x s
  | .tfillLiteral x lit => Sys2Proof.Machine.execTfillLiteral x lit s
  | .tscale x => Sys2Proof.Machine.execTscale x s
  | .tadd x => Sys2Proof.Machine.execTadd x s
  | .trowsum x => Sys2Proof.Machine.execTrowsum x s
  | .tcolsum x => Sys2Proof.Machine.execTcolsum x s
  | .trowmax x => Sys2Proof.Machine.execTrowmax x s
  | .ttrans x => Sys2Proof.Machine.execTtrans x s
  | .tconv x => Sys2Proof.Machine.execTconv x s
  | .tcopyin x => Sys2Proof.Machine.execTcopyin x s
  | .tcopyout x => Sys2Proof.Machine.execTcopyout x s
  | .tsync x => Sys2Proof.Machine.execTsync x s
  | .tinfo x => Sys2Proof.Machine.execTinfo x s
  | .mxr x => Sys2Proof.Machine.execMxr x s
  | .mxz x => Sys2Proof.Machine.execMxz x s
  | .mxb x => Sys2Proof.Machine.execMxb x s
  | .mxa x => Sys2Proof.Machine.execMxa x s
  | .mxo x => Sys2Proof.Machine.execMxo x s
  | .mxw x => Sys2Proof.Machine.execMxw x s
  | .xcopyFill x => Sys2Proof.Machine.execXcopyFill x s
  | .xcopyDrain x => Sys2Proof.Machine.execXcopyDrain x s
  | .xcopyGather x => Sys2Proof.Machine.execXcopyGather x s
  | .xcopyScatter x => Sys2Proof.Machine.execXcopyScatter x s
  | .xwait x => Sys2Proof.Machine.execXwait x s
  | .bxfFill x => Sys2Proof.Machine.execBxfFill x s
  | .bxfScale x => Sys2Proof.Machine.execBxfScale x s
  | .bxfAddc x => Sys2Proof.Machine.execBxfAddc x s
  | .bxfConv x => Sys2Proof.Machine.execBxfConv x s
  | .bxfTrans x => Sys2Proof.Machine.execBxfTrans x s
  | .rdtime d => Sys2Proof.Machine.execRdtime d s
  | .alarm a b => Sys2Proof.Machine.execAlarm a b s
  | .sys d a => Sys2Proof.Machine.execSys d a s
  | .sigIrq a b => Sys2Proof.Machine.execSigIrq a b s
  | .pfetch a => Sys2Proof.Machine.execPfetch a s
  | .pfetchMv a => Sys2Proof.Machine.execPfetchMv a s
  | .evsnap a => Sys2Proof.Machine.execEvsnap a s
  | .evsnapClear a => Sys2Proof.Machine.execEvsnapClear a s
  | .streamDeadlock core slot => Sys2Proof.Machine.execStreamDeadlock core slot s
  | .watchdogExpiry core slot => Sys2Proof.Machine.execWatchdogExpiry core slot s
  | .waitDeadline core slot => Sys2Proof.Machine.execWaitDeadline core slot s
  | .alarmFires core who => Sys2Proof.Machine.execAlarmFires core who s
  | .messageArrival n => Sys2Proof.Machine.execMessageArrival n s
  | .gainUpdateArrival n => Sys2Proof.Machine.execGainUpdateArrival n s
  | .heapPop core slot => Sys2Proof.Machine.execHeapPop core slot s
  | .spawnOfferArrival n => Sys2Proof.Machine.execSpawnOfferArrival n s
  | .spawnAnswer n => Sys2Proof.Machine.execSpawnAnswer n s
  | .keyUpdateArrival n => Sys2Proof.Machine.execKeyUpdateArrival n s
  | .overflowRegionMove core stamp out => Sys2Proof.Machine.execOverflowRegionMove core stamp out s
  | .roundGather kid => Sys2Proof.Machine.execRoundGather kid s
  | .stopArrival kid core => Sys2Proof.Machine.execStopArrival kid core s
  | .finalGather kid => Sys2Proof.Machine.execFinalGather kid s
  | .notify pkg hq value => Sys2Proof.Machine.execNotify pkg hq value s
  | .queueMap pkg hq desc => Sys2Proof.Machine.execQueueMap pkg hq desc s
  | .queueUnmap pkg hq => Sys2Proof.Machine.execQueueUnmap pkg hq s
  | .launchAccept pkg hq plan => Sys2Proof.Machine.execLaunchAccept pkg hq plan s
  | .bindRecordWrite core slot record regs => Sys2Proof.Machine.execBindRecordWrite core slot record regs s
  | .unbindRequest core slot => Sys2Proof.Machine.execUnbindRequest core slot s
  | .preemption core slot => Sys2Proof.Machine.execPreemption core slot s
  | .agingLimit core stamp => Sys2Proof.Machine.execAgingLimit core stamp s
  | .waitLimit core slot => Sys2Proof.Machine.execWaitLimit core slot s
  | .parkedRebind core slot wp => Sys2Proof.Machine.execParkedRebind core slot wp s
  | .dependencyDeadlock kids => Sys2Proof.Machine.execDependencyDeadlock kids s
  | .kernelFault pkg n => Sys2Proof.Machine.execKernelFault pkg n s
  | .contextResume core slot => Sys2Proof.Machine.execContextResume core slot s
  | .fillBegins core id target => Sys2Proof.Machine.execFillBegins core id target s
  | .fillCompletes core id target => Sys2Proof.Machine.execFillCompletes core id target s
  | .drainBegins core id => Sys2Proof.Machine.execDrainBegins core id s
  | .drainCompletes core id => Sys2Proof.Machine.execDrainCompletes core id s
  | .commandFault core id refused => Sys2Proof.Machine.execCommandFault core id refused s
  | .chunkLoaded core => Sys2Proof.Machine.execChunkLoaded core s
  | .chunkForward core => Sys2Proof.Machine.execChunkForward core s
  | .accumulate core => Sys2Proof.Machine.execAccumulate core s
  | .tensorOperationPerformed n => Sys2Proof.Machine.execTensorOperationPerformed n s
  | .formManagerDecision handle form => Sys2Proof.Machine.execFormManagerDecision handle form s
  | .completionNotice core pfe refused => Sys2Proof.Machine.execCompletionNotice core pfe refused s
  | .moveRequest pte dst => Sys2Proof.Machine.execMoveRequest pte dst s
  | .moveComplete pte => Sys2Proof.Machine.execMoveComplete pte s
  | .moveAbandoned pte => Sys2Proof.Machine.execMoveAbandoned pte s
  | .shutterExpiry pte => Sys2Proof.Machine.execShutterExpiry pte s
  | .redirectNotice core va => Sys2Proof.Machine.execRedirectNotice core va s
  | .shootdownPage pkg asid => Sys2Proof.Machine.execShootdownPage pkg asid s
  | .shootdownSubpage pkg asid => Sys2Proof.Machine.execShootdownSubpage pkg asid s
  | .shootdownAsid pkg asid => Sys2Proof.Machine.execShootdownAsid pkg asid s
  | .shootdownAll pkg => Sys2Proof.Machine.execShootdownAll pkg s
  | .shootdownComplete pkg => Sys2Proof.Machine.execShootdownComplete pkg s
  | .statusWrite a => Sys2Proof.Machine.execStatusWrite a s
  | .eventCounterWrite n a late => Sys2Proof.Machine.execEventCounterWrite n a late s
  | .tileTableWrite n a => Sys2Proof.Machine.execTileTableWrite n a s
  | .pageFaultSlotWrite n a => Sys2Proof.Machine.execPageFaultSlotWrite n a s
  | .registerWrite r value => Sys2Proof.Machine.execRegisterWrite r value s
  | .sysqWrite pkg value => Sys2Proof.Machine.execSysqWrite pkg value s
  | .sysqheadWrite pkg value => Sys2Proof.Machine.execSysqheadWrite pkg value s
  | .sysrtokWrite pkg hart token => Sys2Proof.Machine.execSysrtokWrite pkg hart token s
  | .errorLogHeaderWrite a value => Sys2Proof.Machine.execErrorLogHeaderWrite a value s
  | .errorLogEntryWrite a j value => Sys2Proof.Machine.execErrorLogEntryWrite a j value s
  | .injctlWrite a value => Sys2Proof.Machine.execInjctlWrite a value s
  | .pwrctlWrite pkg value => Sys2Proof.Machine.execPwrctlWrite pkg value s
  | .powerWindow pkg watts duty met => Sys2Proof.Machine.execPowerWindow pkg watts duty met s
  | .thermalCap pkg cap => Sys2Proof.Machine.execThermalCap pkg cap s
  | .flitReceived port seq data crc => Sys2Proof.Machine.execFlitReceived port seq data crc s
  | .retrainComplete port good => Sys2Proof.Machine.execRetrainComplete port good s
  | .frameSend port block tokens => Sys2Proof.Machine.execFrameSend port block tokens s
  | .frameReceived port header payload => Sys2Proof.Machine.execFrameReceived port header payload s
  | .endpointWrite pkg addr data => Sys2Proof.Machine.execEndpointWrite pkg addr data s
  | .endpointMsi pkg hart ident => Sys2Proof.Machine.execEndpointMsi pkg hart ident s
  | .readCompletion core slot data => Sys2Proof.Machine.execReadCompletion core slot data s
  | .atomicopCompletion core slot good old => Sys2Proof.Machine.execAtomicopCompletion core slot good old s
  | .reset pkg images => Sys2Proof.Machine.execReset pkg images s
  | .recoveryImage pkg image => Sys2Proof.Machine.execRecoveryImage pkg image s
  | .computeDieRelease pkg => Sys2Proof.Machine.execComputeDieRelease pkg s
  | .attestationRequest pkg nonce => Sys2Proof.Machine.execAttestationRequest pkg nonce s
  | .undefinedEncoding => Sys2Proof.Machine.execUndefinedEncoding s
  | .accumulatorZeroed core => Sys2Proof.Machine.execAccumulatorZeroed core s
  | .accumulatorConverted core => Sys2Proof.Machine.execAccumulatorConverted core s
  | .linkTrained port => Sys2Proof.Machine.execLinkTrained port s
  | .endpointMemoryRead pkg addr len => Sys2Proof.Machine.execEndpointMemoryRead pkg addr len s
  | .temperatureFalls pkg => Sys2Proof.Machine.execTemperatureFalls pkg s

end Sys2Proof.Machine
end

