-- ==== Sys2Proof/Machine/Harts.lean ====
section
/-! DEFINITION. The application cores (R2, R281, R409-R411): their loads, stores, atomic memory operations, fences and claims,
and the control-die register block that they reach (R5, R392). -/

namespace Sys2Proof.Machine

/-! ### The register block (R5, R392) -/

/-- SDSTAT (R412). -/
def Ctl.sdstat (c : Ctl) : Word := BitVec.ofNat 64 (c.sdDone.toNat * 2 ^ 32 + (if c.shootdowns.isEmpty then 0 else 1))

/-- The array instance whose error log has a register offset, and the place in it (R392, R414). -/
def logPlace (pkg off : Nat) : ArrayId × Nat :=
  let o := off - 0x100000000
  ({ pkg := pkg, kind := o / 0x1000000, inst := o % 0x1000000 / 0x200 }, o % 0x200)

/-- The word at a place of an error log (R369, R370). -/
def ErrorLog.wordAt (g : ErrorLog) (at_ : Nat) : Word :=
  if at_ = 0 then setField g.header 40 4 g.place
  else if at_ = 0x1F0 then g.injAdr
  else if at_ = 0x1F8 then g.injCtl
  else if at_ < 0x20 || 0x120 ≤ at_ then 0
  else
    let e := g.entries.toList.getD ((at_ - 0x20) / 0x20) (0, 0, 0)
    match at_ % 0x20 / 8 with
    | 0 => e.1
    | 1 => e.2.1
    | 2 => e.2.2
    | _ => 0

/-- What a read of a register of a package's control die returns, by its offset (R5, R392): a write-only register and a
reserved place read 0. -/
def State.registerRead (s : State) (pkg off : Nat) : Word :=
  let c := s.ctlAt pkg
  match off with
  | 0x40000 => c.sysq
  | 0x40008 => c.sysqIrq
  | 0x40010 => c.sysqHead
  | 0x40018 => c.sysqTail
  | 0x41000 => c.sdva
  | 0x41010 => c.sdstat
  | 0x42000 => c.movcfg
  | 0x42008 => c.fwdcfg
  | 0x43000 => c.pwrctl
  | 0x43008 => c.pwrstat
  | _ =>
    if 0x40100 ≤ off && off < 0x40180 then (if off % 16 = 0 then c.sysRval.toList.getD (off % 0x100 / 16) 0 else 0)
    else if 0x100000000 ≤ off then
      let p := logPlace pkg off
      if Sys2Proof.Machine.ArrayId.exists_ p.1 then (s.logAt p.1).wordAt p.2 else 0
    else 0

/-- The event that a write to a register of a package's control die is, by its offset (R392); none for a read-only register, a
reserved place, and the notify registers, which take their writes with those of the compute contexts. -/
def registerEvent (pkg off : Nat) (value : Word) : Option (State → Result) :=
  match off with
  | 0x40000 => some (execSysqWrite pkg value)
  | 0x40008 => some (execRegisterWrite (.sysqIrq pkg) value)
  | 0x40010 => some (execSysqheadWrite pkg value)
  | 0x41000 => some (execRegisterWrite (.sdva pkg) value)
  | 0x41008 => some (match field value 0 2 with
    | 0 => execShootdownPage pkg (field value 52 12)
    | 1 => execShootdownSubpage pkg (field value 52 12)
    | 2 => execShootdownAsid pkg (field value 52 12)
    | _ => execShootdownAll pkg)
  | 0x42000 => some (execRegisterWrite (.movCfg pkg) value)
  | 0x42008 => some (execRegisterWrite (.fwdCfg pkg) value)
  | 0x43000 => some (execPwrctlWrite pkg value)
  | _ =>
    if 0x40100 ≤ off && off < 0x40180 then
      let hart := off % 0x100 / 16
      some (if off % 16 = 0 then execRegisterWrite (.sysRval pkg hart) value else execSysrtokWrite pkg hart value)
    else if 0x100000000 ≤ off then
      let p := logPlace pkg off
      if p.2 = 0 then some (execErrorLogHeaderWrite p.1 value)
      else if p.2 = 0x1F0 then some (execRegisterWrite (.injAdr p.1) value)
      else if p.2 = 0x1F8 then some (execInjctlWrite p.1 value)
      else if 0x20 ≤ p.2 && p.2 < 0x120 && p.2 % 0x20 = 8 then some (execErrorLogEntryWrite p.1 ((p.2 - 0x20) / 0x20) value)
      else none
    else none

/-- The state after an event that completes. -/
def State.after (s : State) (f : State → Result) : State :=
  match f s with
  | .next t => t
  | _ => s

/-- Whether a physical address lies in a control die's register block, and the offset there (R391, R392). -/
def inRegisters (addr : Nat) : Bool := isIo addr && addr / 2 ^ 46 % 8 == 7
def registerOffset (addr : Nat) : Nat := addr % 2 ^ 46

/-- Whether an access of n bytes reaches registers: aligned, of 8 bytes (R392). -/
def registerSized (addr n : Nat) : Bool := n == 8 && addr % 8 == 0

/-- An application core's store to a register block (R392, R411). -/
def State.registerStore (s : State) (addr : Nat) (data : List Byte) : State :=
  if !registerSized addr data.length then s
  else
    match registerEvent (addr / 2 ^ 50 % 4) (registerOffset addr) (wordOf data) with
    | some f => s.after f
    | none => s.ioStore addr data

/-! ### Accesses (R281, R411) -/

/-- Whether a package has an application core of this number (R2). -/
def isHart (pkg hart : Nat) : Bool := pkg < Config.packages && hart < Config.harts

/-- A plain store by an application core to a physical address (R281, R392, R411). -/
def State.hartStores (s : State) (pkg hart addr : Nat) (data : List Byte) : State :=
  if !isHart pkg hart || addr + data.length > spBase || s.hartHeld (.hart pkg hart) then s
  else if !isIo addr then s.dieWrite (.hart pkg hart) addr data none
  else
    match s.routeTo pkg 8 addr with
    | .none_ => s.dieCheck (.hart pkg hart) (s.undelivered (.hart pkg hart) addr)
    | .waits => s
    | _ => if inRegisters addr then s.registerStore addr data else s.ioStore addr data

/-- An application core's load from I/O space: a register's word; of a device a free value (R392, log 12). -/
def State.hartIoLoads (s : State) (pkg hart addr n : Nat) : State :=
  match s.routeTo pkg 8 addr with
  | .none_ => s.dieCheck (.hart pkg hart) (s.undelivered (.hart pkg hart) addr)
  | .waits => s
  | _ =>
    if inRegisters addr then
      s.hartReadsOf pkg hart addr
        (if registerSized addr n then toBytes 8 (s.registerRead (addr / 2 ^ 50 % 4) (registerOffset addr)).toNat else List.replicate n 0)
    else (s.hartReadsOf pkg hart addr (toBytes n (Config.freeToken s.free).toNat)).drew

/-- A plain load by an application core (R273, R281), which RVWMO has come after the loads that its address depends on. -/
def State.hartLoads (s : State) (pkg hart addr n : Nat) (deps : List Nat) : State :=
  if !isHart pkg hart || n = 0 || addr + n > spBase || s.hartHeld (.hart pkg hart) then s
  else if isIo addr then s.hartIoLoads pkg hart addr n
  else s.dieRead (.hart pkg hart) addr n (s.dependsOn pkg hart deps)

/-- An atomic memory operation of an application core on memory (R281). One that would cross a package that refuses forwarded
atomics has no effect (R388, R400; log 19), nor one on I/O space, for which R389 and R415 give a hart no AtomicOp: DESIGN CHOICE
(log 19). Its place is where it is performed, after all that its core has had performed; with `rl` it waits for what stands in a page
home's queue, and with `aq` the core's later loads come after it (R281). -/
def State.hartUpdates (s : State) (pkg hart addr n : Nat) (op : HartOp) (aq rl : Bool) : State :=
  let c : Agent := .hart pkg hart
  if !isHart pkg hart || !(n == 4 || n == 8) || addr % n != 0 || addr + n > spBase || isIo addr
      || s.refusedFrom pkg 8 (s.forwarded addr) || s.hartHeld c || (rl && s.hartWaits c) then s
  else
    match s.dieReach c addr n with
    | .no => s
    | .waits => s
    | .lost => s.dieCheck c (s.undelivered c addr)
    | .apart => s.dieEach c addr n (fun key _ n => .update c key n op aq) fun s key _ n => s.dieUpdates c key n op aq
    | .yes => s.dieUpdates c addr n op aq

/-- An application core after a fence that orders its later loads, in the order of the application cores (R281): they come after its
earlier loads and its earlier stores, as the fence orders those. Its later stores do so in any case. -/
def State.fenced (s : State) (pkg hart : Nat) (pr pw sr : Bool) : State :=
  let o := s.orderOf pkg hart
  if sr then s.setOrder { o with floor := max o.floor (max (if pr then o.reads else 0) (if pw then o.writes else 0)) } else s

/-- A fence by an application core (R281): toward compute agents one that orders reads and writes before later writes is a release half
at `sys`, one that orders reads before later reads and writes an acquire half. It waits for the core's requests that stand in a page
home's queue (R385). -/
def State.hartFences (s : State) (pkg hart : Nat) (pr pw sr sw : Bool) : State :=
  let c : Agent := .hart pkg hart
  if !isHart pkg hart || s.hartWaits c then s
  else
    let s := if pr && pw && sw then s.release c .sys else s
    (if pr && sr && sw then s.acquire c .sys else s).fenced pkg hart pr pw sr

/-- An application core claims a pending interrupt identity (R409, R410). -/
def State.hartClaims (s : State) (pkg hart ident : Nat) : State :=
  let c := s.ctlAt pkg
  if isHart pkg hart && c.pendingIrq.contains (hart, ident) then
    s.setCtl pkg { c with pendingIrq := c.pendingIrq.filter fun q => q != (hart, ident) }
  else s

/-- The operating system marks a device window as an AtomicOp completer, or takes the mark away (R389). -/
def State.windowMarked (s : State) (pkg base size : Nat) (on : Bool) : State :=
  if pkg < Config.packages && isIo base && base / 2 ^ 50 % 4 = pkg && base / 2 ^ 46 % 8 < 2 then
    s.mapCtl pkg fun c =>
      let rest := c.atomicWindows.filter (· != (base, size))
      { c with atomicWindows := if on then (base, size) :: rest else rest }
  else s

/-- AtomicOp requests of a root port are enabled or disabled (R389). -/
def State.portEnabled (s : State) (pkg port : Nat) (on : Bool) : State :=
  if pkg < Config.packages && port < 2 then
    s.mapCtl pkg fun c =>
      let rest := c.atomicPorts.filter (· != port)
      { c with atomicPorts := if on then port :: rest else rest }
  else s

/-- The operating system sets up a package's IOMMU (R415). -/
def State.iommuSet (s : State) (pkg : Nat) (m : Iommu) : State :=
  if pkg < Config.packages then s.mapCtl pkg fun c => { c with iommu := m } else s

end Sys2Proof.Machine
end

