-- ==== Sys2Proof/Machine/Turns.lean ====
section
/-! DEFINITION. What a context slot does at its turn: fetching and running the next instruction, taking the issue slot (R42,
R222), gangs in lock step (R209), and plain loads whose values come later (R273; log 7). -/

namespace Sys2Proof.Machine

/-- Whether the blade has such a core and slot (R2, R183, R187). -/
def onBlade (core slot : Nat) : Bool := core < Config.packages * Config.coresPerPackage && slot < Config.slots

/-! ### Running a fetched instruction -/

/-- Running the words of a fetched instruction: decoded, or refused at decoding (R57, R62). -/
noncomputable def runWords (ws : List IWord) (s : State) : Result :=
  match decode ws with
  | .ok i => exec i (s.holding ws)
  | .error .reservedField => .next ((s.holding ws).scalarTrap { cause := 0x0101 })
  | .error _ => exec .undefinedEncoding (s.holding ws)

/-- Fetching the instruction at the PC and running it. -/
noncomputable def runFetched (s : State) : Result :=
  match s.fetch with
  | .ok (ws, t) => runWords ws t
  | .error e => .next (s.unfetched e)

/-! ### Members of a gang (R209) -/

/-- Whether an instruction is a branch or a jump: its sources, and what takes its return address (R115, R116). -/
def jumpOperands : Instr → Option (List SOpd × List SOpd)
  | .beq a b _ | .bne a b _ | .blt a b _ | .bge a b _ | .bltu a b _ | .bgeu a b _ | .bany a b _ | .ball a b _ | .bnone a b _ => some ([a, b], [])
  | .j _ => some ([], [])
  | .jal _ => some ([], [.w 23])
  | .jalr d a _ => some ([a], [d])
  | _ => none

/-- Reading operands in their order, for what reading them does. -/
def State.readOpds (s : State) : List SOpd → Act State
  | [] => .ok s
  | o :: os => do
    let (_, s) ← s.readS o
    s.readOpds os

/-- Writing a value to each of some operands. -/
def State.writeOpds (s : State) (x : Word) : List SOpd → Act State
  | [] => .ok s
  | o :: os => do
    let s ← s.writeS o x
    s.writeOpds x os

/-- A member follows the leader's branch or jump: the condition and the target are the leader's. The member executes it on operands
of its own all the same (R209): it reads its own link slots and queues, for which it needs its claim (R247), and the return address
goes into its own register (DEDUCED, log 39). -/
def State.follows (s : State) (srcs dsts : List SOpd) (target : Word) : State :=
  s.issue (scalarChecks srcs dsts) (dsts ++ srcs) .free fun s => do
    s.twiceCheck (linksOf srcs)
    let s ← s.readOpds srcs
    let s ← s.writeOpds (s.nextPc 4) dsts
    .ok (s.jump target)

/-- A member executes the words of its leader's instruction. -/
noncomputable def runMember (g : Gang) (s : State) : Result :=
  match (match decode g.words with | .ok i => jumpOperands i | .error _ => none) with
  | some (srcs, dsts) => .next ((s.holding g.words).follows srcs dsts g.next)
  | none => runWords g.words s

/-! ### Turns -/

/-- A request of the scalar stream that had its turn at a page home leaves the queue there (R385). -/
def throughHome (s : State) : Result → Result := thenDo fun t => t.letThrough s (s.asRequest false)

/-- What the focused context does at its turn: alone, as the leader of a gang, or as another member (R209). -/
noncomputable def contextTurn (s : State) : Result :=
  throughHome s (match s.gangOf s.coreId s.slotId with
    | none => s.atBoundary (runFetched s)
    | some g =>
      if g.pending.contains (s.coreId, s.slotId) then thenDo (·.gangFollowed s g) (s.atBoundary (runMember g (s.atPc g.base)))
      else if g.pending.isEmpty && g.members.head? == some (s.coreId, s.slotId) then
        thenDo (·.gangLed s) (s.atBoundary (runFetched s))
      else s.atBoundary (.next s))

/-- The turn of a context that does not hold its core's issue slot: it takes it, if it may, and otherwise nothing but
what a boundary takes happens (R42, R222). -/
noncomputable def takingTurn (s : State) : Result :=
  if s.mayIssue contextTurn then contextTurn s.given else s.atBoundary (.next s)

/-- A context slot's turn. One that waits and would go on waiting needs no issue slot for it. -/
noncomputable def issueTurn (s : State) : Result :=
  match s.slot.st with
  | .active => if s.slot.par.issues then contextTurn s else takingTurn s
  | .waiting => if s.readyAt contextTurn s.slotId then takingTurn s else contextTurn s
  | _ => .next s

/-! ### Loads whose values come later (R273; log 7) -/

/-- A scalar load that makes no half: destination, base, displacement, bytes, whether it extends the sign (R117), and how it reads
(R121, R264). -/
def plainLoad : Instr → Option (SOpd × SOpd × Word × Nat × Bool × LoadMode)
  | .ldB d b o => some (d, b, effective 0 o 1, 1, true, .plain)
  | .ldBz d b o => some (d, b, effective 0 o 1, 1, false, .plain)
  | .ldH d b o => some (d, b, effective 0 o 2, 2, true, .plain)
  | .ldHz d b o => some (d, b, effective 0 o 2, 2, false, .plain)
  | .ldW d b o => some (d, b, effective 0 o 4, 4, true, .plain)
  | .ldWz d b o => some (d, b, effective 0 o 4, 4, false, .plain)
  | .ldD d b o => some (d, b, effective 0 o 8, 8, false, .plain)
  | .ldInv d b o => some (d, b, effective 0 o 8, 8, false, .invariant)
  | .ldxW x => ofScoped x 4
  | .ldxD x => ofScoped x 8
  | .amldD x => ofScoped x 8
  | _ => none
where
  ofScoped (x : Ext) (n : Nat) : Option (SOpd × SOpd × Word × Nat × Bool × LoadMode) :=
    if x.acq || x.rel then none else some (opdOf x.od, opdOf x.oa, x.imm.signExtend 64, n, n == 4, .scoped x.scp)

/-- The registers of an instruction that may complete while loads before it are pending, where it names none of theirs, and whether
it waits for earlier vector instances (R31). -/
def passRegs : Instr → Option (List SOpd × Bool)
  | .add d a b | .sub d a b | .mul d a b | .mulh d a b | .div d a b | .divu d a b | .rem d a b | .remu d a b
  | .and d a b | .or d a b | .xor d a b | .andn d a b | .sll d a b | .srl d a b | .sra d a b | .ror d a b
  | .min d a b | .max d a b | .slt d a b | .sltu d a b | .seq d a b | .sne d a b | .cmovz d a b | .cmovn d a b
  | .addsat d a b | .mkm d a b => some ([d, a, b], false)
  | .fsli d a b _ | .fsri d a b _ => some ([d, a, b], false)
  | .popc d a | .clz d a | .ctz d a | .brev d a | .bswap d a => some ([d, a], false)
  | .addi d a _ | .andi d a _ | .ori d a _ | .xori d a _ | .slti d a _ => some ([d, a], false)
  | .addiLiteral d a _ => some ([d, a], false)
  | .slli d a _ | .srli d a _ | .srai d a _ => some ([d, a], false)
  | .bfx d a _ _ _ => some ([d, a], false)
  | .bfi d a _ _ => some ([d, a], false)
  | .lpc d _ => some ([d], false)
  | .beq a b _ | .bne a b _ | .blt a b _ | .bge a b _ | .bltu a b _ | .bgeu a b _ | .bany a b _ | .ball a b _ | .bnone a b _ =>
    some ([a, b], false)
  | .j _ => some ([], false)
  | .jal _ => some ([.w 23], false)
  | .jalr d a _ => some ([d, a], false)
  | .stB d b _ | .stH d b _ | .stW d b _ | .stD d b _ => some ([d, b], true)
  | .send x => some (scalarsOf [x.od, x.oa, x.ob, x.oc], true)
  | _ => none

/-- The pending loads of a context slot. -/
def State.pendingAtSlot (s : State) (core slot : Nat) : List LateLoad := s.late.filter fun l => l.core == core && l.slot == slot

/-- Those of the focused one. -/
def State.pendingHere (s : State) : List LateLoad := s.pendingAtSlot s.coreId s.slotId

/-- The bytes that a load reads: where each access begins, and how many. -/
def LateLoad.stretches (l : LateLoad) : List (Nat × Nat) := l.parts.map fun p => (p.1 + (span p.2).1, (span p.2).2)

/-- Whether a load reads any of n bytes from a key. -/
def LateLoad.reads (l : LateLoad) (key n : Nat) : Bool := l.stretches.any fun k => k.1 < key + n && key < k.1 + k.2

/-- Whether a load writes a vector register. -/
def LateLoad.isVector (l : LateLoad) : Bool := match l.dst with | .vector _ => true | .scalar _ _ _ => false

/-- Whether a load writes one of some scalar operands. -/
def LateLoad.writesOneOf (l : LateLoad) (ops : List SOpd) : Bool := match l.dst with | .scalar d _ _ => ops.contains (.w d) | .vector _ => false

/-- The slot with the register that a pending load writes holding a value (for a scalar register, the queued entries of later
instructions see it too). -/
def Slot.withLate (s : Slot) (l : LateLoad) (x : VReg) : Slot :=
  match l.dst with
  | .scalar d _ _ => ({ s with w := wSet s.w d (x.setWidth 64) } : Slot).late l.pos d (x.setWidth 64)
  | .vector n => { s with v := s.v.set n x }

/-- A value comes to the register of a load of the focused slot; what keeps the registers of a later boundary keeps it too (R37). -/
def State.putLate (s : State) (l : LateLoad) (x : VReg) : State := { s with slot := s.slot.withLate l x }

/-- What a pending load of the focused context reads now at one of its stretches (R121, R273). -/
def State.readLate (s : State) (l : LateLoad) (key n : Nat) : List Byte × State :=
  if l.isVector then s.loadAt l.pos key n else s.loadKey false l.mode key n

/-- The bytes that a pending load reads now, each with its place in the register. -/
def State.gotLate (s : State) (l : LateLoad) : List (Nat × Byte) × State :=
  l.parts.foldl (fun acc p =>
    let sp := span p.2
    let r := acc.2.readLate l (p.1 + sp.1) sp.2
    (acc.1 ++ ((p.2.drop sp.1).zip r.1).filterMap fun q => q.1.map fun j => (j, q.2), r.2)) ([], s)

/-- The register's value from the bytes that a load has read. -/
def State.lateValue (s : State) (l : LateLoad) (got : List (Nat × Byte)) : VReg :=
  match l.dst with
  | .scalar _ n signed => let x := wordOf (got.map (·.2)); (if signed then sextBytes n x else x).setWidth 1024
  | .vector d => placeBytes (lanesOf 8 s.slot.v[d]) got

/-- A load's value comes: what its bytes may read now (R273); where an error has since been stored there, what it had read
when it issued. -/
def State.lands (s : State) (l : LateLoad) : State :=
  ({ s with late := s.late.erase l } : State).within l.core l.slot fun s =>
    match l.stretches.foldlM (fun s k => s.checkRead s.self k.1 k.2) s with
    | .ok s => let r := s.gotLate l; r.2.putLate l (r.2.lateValue l r.1)
    | .error _ => s.putLate l l.val

/-- Whether a load makes an acquire half as it reads (R271 item 3). -/
def LateLoad.halves (l : LateLoad) : Bool := match l.mode with | .scoped _ => true | _ => false

/-- The values of some loads come, those last that make a half. -/
def State.allLand (s : State) (ls : List LateLoad) : State :=
  ((ls.filter fun l => !l.halves) ++ ls.filter (·.halves)).foldl State.lands s

/-- Whether the focused context's writes between two states miss the bytes of some pending loads, and none of them makes a half. -/
def State.missed (t s : State) (ls : List LateLoad) : Bool :=
  t.releases.length == s.releases.length && (t.hist.drop s.hist.length).all fun r =>
    r.by_ != s.self || (r.alone.isNone && !ls.any fun l => l.stretches.any fun k => r.touches k.1 k.2)

/-- Whether a turn of the focused context, from s to t, offloaded a vector instruction and ran none. -/
def State.offloadedOnly (t s : State) : Bool :=
  t.slot.pos == s.slot.pos + 1 && t.slot.seq.entries.length == s.slot.seq.entries.length + 1 && t.slot.v == s.slot.v && t.slot.w == s.slot.w

/-- Whether a turn of the focused context, from s to t, may go before the values of its pending loads: a stall, one instruction that
names none of their registers, touches none of their bytes, makes no half of a curtain and waits for none of them, or an offload,
where they are vector loads (R28, R31, R273). -/
noncomputable def State.passedLate (t s : State) (ls : List LateLoad) : Bool :=
  !t.trappedSince s && t.slot.st == s.slot.st && t.missed s ls
    && ((ls.all (·.isVector) && t.offloadedOnly s)
      || (t.slot.seq == s.slot.seq
        && (t.slot.pos == s.slot.pos || (match decode t.slot.ir with
          | .ok i => (match passRegs i with
            | some r => ls.all fun l => !l.writesOneOf r.1 && !(r.2 && l.isVector)
            | none => false)
          | .error _ => false))))

/-- A turn of the focused context; its pending loads have their values first, where it may not go before them. -/
noncomputable def lateTurn (body : State → Result) (s : State) : Result :=
  match s.pendingHere with
  | [] => body s
  | ls =>
    match body s with
    | .next t => if t.passedLate s ls then .next t else body (s.allLand ls)
    | r => r

/-! #### Scalar loads -/

/-- The focused context's next instruction, a scalar load that would complete now, issued with its value to come; none where it
is none, or must wait for a load before it. -/
noncomputable def lateIssue (s : State) : Option State :=
  match s.fetch with
  | .error _ => none
  | .ok (ws, f) =>
    match decode ws with
    | .error _ => none
    | .ok i =>
      match plainLoad i, exec i (f.holding ws) with
      | some (.w d, .w b, off, n, signed, mode), .next t =>
        match f.resolve false (wGet f.slot.w b + off) n .load with
        | .error _ => none
        | .ok (key, _) =>
          if t.slot.pos != f.slot.pos + 1 || t.trappedSince f || isIo key
              || s.pendingHere.any (fun l => l.writesOneOf [.w d, .w b] || l.reads key n) then none
          else some { t with
            hist := f.hist
            ceilings := f.ceilings
            slot := { t.slot with w := f.slot.w }
            late := t.late ++ [{ core := s.coreId, slot := s.slotId, pos := f.slot.pos, parts := [(key, (List.range n).map some)],
                                 mode := mode, dst := .scalar d n signed, val := (wGet t.slot.w d).setWidth 1024 }] }
      | _, _ => none

/-- A turn in which the focused context issues a scalar load whose value is to come. -/
noncomputable def issueLateTurn (s : State) : Result :=
  .next (if s.slot.st == .active && s.slot.par.issues && !s.slot.par.unbind && !s.wdDue && (s.gangOf s.coreId s.slotId).isNone
    then (lateIssue s).getD s else s)

/-! #### Vector loads -/

/-- The vector registers of an operand of an instance, its pair's odd half among them. -/
def vectorsOf (p : Spec) : List (Fin 16) := match p with | .v (.v n) => [n, Fin.ofNat 16 (n.val + 1)] | _ => []

/-- Whether an instance names the register of a load that is pending, or writes it. -/
def LateLoad.namedBy (l : LateLoad) (e : Entry) : Bool :=
  match l.dst with
  | .scalar d _ _ => e.sdests.contains d
  | .vector n => [e.x.od, e.x.oa, e.x.ob, e.x.oc].any fun p => (vectorsOf p).contains n

/-- Whether the focused context's next instance reads none of the bytes of some pending loads; one through a tile may. -/
def State.readsApart (s : State) (e : Entry) (ls : List LateLoad) : Bool :=
  e.op != .ldt && (match plainReads e s with
    | .ok (as, _) => as.all fun a => let sp := span a.bytes; !ls.any fun l => l.reads (a.key + sp.1) sp.2
    | .error _ => true)

/-- Whether an instance that the focused context's vector stream ran, from s to t, may go before the values of pending loads: it names
none of their registers and touches none of their bytes (R31, R273). -/
def State.passedVector (t s : State) (ls : List LateLoad) : Bool :=
  match s.slot.seq.current with
  | none => true
  | some e => !t.trappedSince s && t.missed s ls && s.readsApart e ls && !ls.any fun l => l.namedBy e

/-- The focused context's vector stream runs one instance; its pending loads have their values first, where it may not go before
them. -/
def State.lateVector (s : State) : State :=
  match s.pendingHere with
  | [] => s.vectorAlone
  | ls => let t := s.vectorAlone; if t.passedVector s ls then t else (s.allLand ls).vectorAlone

/-- The focused context's next instance, a plain vector load that would complete now, run with its value to come; none where it is
none, or must wait for a load before it. -/
def State.vectorIssued (s : State) : Option State :=
  match s.slot.seq.current with
  | none => none
  | some e =>
    match e.x.od, plainReads e s, s.vectorTry with
    | .v (.v n), .ok (as, _), .ran t =>
      if as.isEmpty || t.trappedSince s || as.any (fun a => isIo a.key) || !s.readsApart e s.pendingHere
          || s.pendingHere.any (fun l => l.namedBy e) then none
      else some { t with
        hist := s.hist
        ceilings := s.ceilings
        late := t.late ++ [{ core := s.coreId, slot := s.slotId, pos := e.at_.pos, parts := as.map fun a => (a.key, a.bytes),
                             mode := .plain, dst := .vector n, val := t.slot.v[n] }] }
    | _, _, _ => none

/-- A turn of the vector stream in which its next instance, a plain load, issues with its value to come. -/
def State.vectorLate (s : State) : State :=
  if (s.slot.st == .active || s.slot.st == .waiting) && (s.gangOf s.coreId s.slotId).isNone then
    match s.vectorIssued with
    | some t => t.letThrough s (s.asRequest true)
    | none => s
  else s

/-! ### Values that come, and events -/

/-- The value of the i-th pending load of a context slot comes. A load that makes a half comes after the loads before it in program
order: the half follows them in curtain order (R271). -/
def State.landed1 (s : State) (core slot i : Nat) : State :=
  match (s.pendingAtSlot core slot)[i]? with
  | some l => if l.halves && (s.pendingAtSlot core slot).any (fun m => m.pos < l.pos) then s else s.lands l
  | none => s

/-- Whether a slot's context stands where it stood: no event has touched what it runs. -/
def Slot.sameWork (x y : Slot) : Bool :=
  x.w == y.w && x.v == y.v && x.pc == y.pc && x.st == y.st && x.pos == y.pos && x.status == y.status && x.seq == y.seq

/-- The package whose control die writes a register. -/
def regHome : DieReg → Nat
  | .sysqIrq p | .sysRval p _ | .sdva p | .movCfg p | .fwdCfg p => p
  | .injAdr a => a.pkg
  | .wdlim c | .rgn c _ | .aspace c | .irqwin c | .pfvec c => pkgOf c

/-- Which image of which package's control die must run for an event: the stagehand firmware (2) for what stagehands do, the operating
system (3), which its loader brings up, for what it does, any image (1) for a write to another register (R417, R418; DEDUCED, log 55).
None for what the hardware, the compute dies, the boot ROM or the outside does. -/
def imageFor : Instr → Option (Nat × Nat)
  | .queueMap p _ _ | .queueUnmap p _ | .launchAccept p _ _ | .kernelFault p _ => some (p, 2)
  | .bindRecordWrite c _ _ _ | .unbindRequest c _ | .waitLimit c _ | .parkedRebind c _ _ | .contextResume c _ | .completionNotice c _ _ =>
    some (pkgOf c, 2)
  | .finalGather kid => some (kid / 1024 % 4, 2)
  | .dependencyDeadlock kids => some (kids.headD 0 / 1024 % 4, 2)
  | .sysqWrite p _ | .sysqheadWrite p _ | .sysrtokWrite p _ _ | .shootdownPage p _ | .shootdownSubpage p _ | .shootdownAsid p _
  | .shootdownAll p => some (p, 3)
  | .errorLogHeaderWrite a _ | .errorLogEntryWrite a _ _ | .injctlWrite a _ => some (a.pkg, 1)
  | .pwrctlWrite p _ => some (p, 1)
  | .registerWrite r _ => some (regHome r, 1)
  | _ => none

/-- Whether an image of a package's control die runs (R417). -/
def State.runsImage (s : State) (p t : Nat) : Bool := (s.ctlAt p).booted.contains t

/-- Whether what is to do an event runs, and for a bind the compute dies are released (R417). -/
def State.mayDo (s : State) (i : Instr) : Bool :=
  (match imageFor i with | some (p, t) => s.runsImage p t | none => true)
    && (match i with
      | .bindRecordWrite c _ _ _ | .parkedRebind c _ _ => (s.ctlAt (pkgOf c)).released
      | _ => true)

/-- An event; the contexts that it touches have the values of their pending loads first. -/
noncomputable def eventTurn (i : Instr) (s : State) : Result :=
  match exec i s with
  | .next t =>
    match s.late.filter fun l => !(t.slotAt l.core l.slot).sameWork (s.slotAt l.core l.slot) with
    | [] => .next t
    | ls => exec i (s.allLand ls)
  | r => r

/-- A pre-emption or a watchdog's expiry (R356, R362): of a context that holds the issue slot, and for which either is due, at the
boundary before its next instruction, whose trap comes first, then the expiry, then the pre-emption. -/
noncomputable def boundaryTurn (i : Instr) (core slot : Nat) (s : State) : Result :=
  let f := s.focusOn core slot
  if onBlade core slot && f.slot.st == .active && f.slot.par.issues && (f.slot.par.unbind || f.wdDue) then lateTurn contextTurn f else eventTurn i s

/-- Whether a parked context, were it in a slot of its core, would not wait on: what it waits for is there (R286, R363). -/
noncomputable def State.wouldResume (s : State) (core slot : Nat) (x : Slot) : Bool :=
  match s.live x.par.kid with
  | none => false
  | some k =>
    match contextTurn (((s.comesTo core k none).within core slot fun s => s.bindParked x).focusOn core slot) with
    | .next t => (t.slotAt core slot).st != .waiting
    | _ => true

/-- The parked contexts of a core whose waits would end in a slot, if that is free, marked so (R286, R363). -/
noncomputable def State.judged (s : State) (core slot : Nat) : State :=
  if (s.slotAt core slot).st != .unbound then s
  else
    let k := s.coreAt core
    let met (x : Slot) : Bool := x.st == .waiting && !(s.boundWs core).contains x.wp.toNat && s.wouldResume core slot x
    s.setCore core { k with parked := k.parked.map fun x => if met x then { x with par := { x.par with met := true } } else x }

/-- A bind record is written, or a parked context is rebound, once the waits of all that are parked there have been judged: which of
them are to have a slot decides the order (R222, R223). -/
noncomputable def bindTurn (i : Instr) (core slot : Nat) (s : State) : Result := eventTurn i (s.judged core slot)

end Sys2Proof.Machine
end

