-- ==== Sys2Proof/Machine/Step.lean ====
section
/-! DEFINITION. One step: the next turn of the agenda, or else the focused context's next instruction (log 1). -/

namespace Sys2Proof.Machine

/-- The turn of an event. -/
noncomputable def eventOf (i : Instr) (s : State) : Result :=
  match i with
  | .preemption c k => boundaryTurn (.preemption c k) c k s
  | .watchdogExpiry c k => boundaryTurn (.watchdogExpiry c k) c k s
  | .parkedRebind c k wp => bindTurn (.parkedRebind c k wp) c k s
  | .bindRecordWrite c k r regs => bindTurn (.bindRecordWrite c k r regs) c k s
  | i => if i.bytes = 0 && !isEffect i then eventTurn i s else .next s

/-- What the operating system of a package does, once its loader runs (R417). -/
def byOs (p : Nat) (s t : State) : Result := .next (if s.runsImage p 3 then t else s)

/-- One turn. -/
noncomputable def turn (t : Turn) (s : State) : Result :=
  match t with
  | .issue c k => if onBlade c k then lateTurn issueTurn (s.focusOn c k) else .fault .noSuchAgent
  | .vector c k => if onBlade c k then .next (s.focusOn c k).lateVector else .fault .noSuchAgent
  | .vectorLate c k => if onBlade c k then .next (s.focusOn c k).vectorLate else .fault .noSuchAgent
  | .issueLate c k => if onBlade c k then issueLateTurn (s.focusOn c k) else .fault .noSuchAgent
  | .land c k i => if onBlade c k then .next (s.landed1 c k i) else .fault .noSuchAgent
  | .event i => if s.mayDo i then eventOf i s else .next s
  | .hartStore p h a data => byOs p s (s.hartStores p h a data)
  | .hartLoad p h a n deps => byOs p s (s.hartLoads p h a n deps)
  | .hartAtomic p h a n op aq rl => byOs p s (s.hartUpdates p h a n op aq rl)
  | .hartFence p h pr pw sr sw => byOs p s (s.hartFences p h pr pw sr sw)
  | .hartClaim p h i => byOs p s (s.hartClaims p h i)
  | .upset f => .next (s.upset f)
  | .spoil c m a addr fatal => .next (s.spoil c m a addr fatal)
  | .atomicWindow p base size on => byOs p s (s.windowMarked p base size on)
  | .atomicPort p port on => byOs p s (s.portEnabled p port on)
  | .iommu p m => byOs p s (s.iommuSet p m)
  | .spaceEnd asid => .next (s.endSpace asid)
  | .queueRefresh p hq => .next (if s.runsImage p 2 then s.queueRefreshed p hq else s)

/-- One step. -/
noncomputable def step (s : State) : Host.Outcome State Fault Refusal :=
  match s.agenda with
  | [] => ticked (lateTurn issueTurn s)
  | t :: ts => ticked (turn t { s with agenda := ts })

/-- Where `withFetchWord` lays an instruction down: a scratchpad address of the local window (log 4). -/
def fetchBase : Nat := Config.windowBase + 0x2000

/-- The kernel whose context `withFetchWord` sets going: one core of die 0 (log 4). -/
def fetchKernel : Kernel where
  kid := 4097
  desc := 0
  slotAddr := 0
  record := [0, 0, BitVec.ofNat 64 (2 ^ 32 + 2 ^ 16 + 1), 0, 0, 0, 0, 0, 0, 0, 0, 0, 0, 0, 0, 0]
  bands := [{ row0 := 0, height := 1, die := 0, x0 := 0, y0 := 0 }]
  handlers := []
  tiles := []
  aspace := 0
  dflt := none
  barriers := []
  kmaps := []
  succgo := 0
  rounds := 0
  hi := 0
  lo := 0
  started := true
  pred := none
  predPending := false
  stopping := false
  tolMet := false
  ended := none
  cause := 0
  drop := 0
  removed := []
  accepted := 0
  joined := []

/-- The state with an instruction whose low nbits bits are w, its other bits zero, as the focused context's next: the
context is ACTIVE for a kernel and its PC names the scratchpad bytes that hold the words (log 4). -/
def State.withFetchWord (s : State) (nbits w : Nat) : State :=
  let data := (wordsOf 5 (w % 2 ^ nbits)).flatMap fun x => toBytes 4 x.toNat
  { s with
    agenda := []
    gangs := []
    ids := if s.ids = 0 then 1 else s.ids
    kernels := assocSet 4097 fetchKernel s.kernels
    mem := Memory.setBytes s.mem (spKey s.coreId 0x2000) data
    slot := { s.slot with
      st := .active
      tag := 1
      pc := BitVec.ofNat 64 fetchBase
      seq := { items := [], opened := none }
      par := { s.slot.par with kid := 4097, ident := 1, wd := s.cycle, issues := true, unbind := false, stalled := false } } }

end Sys2Proof.Machine
end

