-- ==== Sys2Proof/Safety.lean ====
section
/-! DEFINITION. What the statements about this machine are said in: memory in its canonical form, a blade that every
turn of the agenda lies on, and when a scalar instruction issues. -/

namespace Sys2Proof.Machine

/-- Memory has its canonical form: a step keeps it. -/
def State.sound (s : State) : Bool := Memory.wf s.mem

/-- The focus is on a core and a slot of the blade (R2, R183, R187): a step keeps it there. -/
def State.focused (s : State) : Bool := Sys2Proof.Machine.onBlade s.coreId s.slotId

/-- Whether a turn names a core and a slot that the blade has (R2, R183, R187). -/
def Turn.onBlade : Turn → Bool
  | .issue c k => Sys2Proof.Machine.onBlade c k
  | .vector c k => Sys2Proof.Machine.onBlade c k
  | .vectorLate c k => Sys2Proof.Machine.onBlade c k
  | .issueLate c k => Sys2Proof.Machine.onBlade c k
  | .land c k _ => Sys2Proof.Machine.onBlade c k
  | _ => true

/-- A state whose agenda names only cores and slots of the blade: its steps stop for nothing. -/
def State.onBlade (s : State) : Bool := s.agenda.all Turn.onBlade

/-- Nothing of the vector stream is outstanding: no entry, no loop, no open body (R28). -/
def State.Clear (s : State) : Prop := s.slot.seq = { items := [], opened := none }

/-- A scalar instruction with these checks, operands and pace issues now, in the state t (R28-R32, R57): no check of
decoding traps, R31 makes it wait for no vector instruction, and R30 for no register; an open body that R31 makes it
close is closed. -/
def State.Issues (s : State) (c : Checks) (ops : List SOpd) (p : Pace) (t : State) : Prop :=
  s.decodeTrap c = .ok () ∧ t = s.paced (paceOf p ops) ∧ t.mustDrain (paceOf p ops) = false ∧ t.hazard ops = false

end Sys2Proof.Machine
end

