-- ==== Sys2Proof/WellFormed.lean ====
section
/-! DEFINITION. Which instructions the spec's encodings hold (R45-R62): an instruction form, none of whose fields is
refused at decoding. -/

namespace Sys2Proof

/-- An instruction form whose unused fields are zero (R55) and whose used ones are defined. -/
def Instr.wellFormed (i : Instr) : Bool :=
  i.bytes != 0 && i.defined && (match i.extUse with
    | some (x, u) => x.fits u
    | none => true)

end Sys2Proof
end

