-- ==== Sys2Proof/Certificates/Slice0/Obligations.lean ====
section
/-! DEFINITION. The statements for the provers. A statement about what an instruction does has as its conclusion the
next state that `exec` answers, for every state and operands that meet conditions on the state and the operands alone:
that equation is also its frame, since every field that the named operations do not set is as before. -/

open Sys2Proof Sys2Proof.Machine

/-! ### Shapes: what several instructions of one form do -/

namespace Sys2Proof.Shape

/-- An instruction of two scalar sources and a scalar destination, of 4 bytes: it reads a, then b, writes the
destination, and goes on. -/
def TwoSource (i : Instr) (d a b : SOpd) (f : Word → Word → Word) : Prop :=
  ∀ (s t u v w : State) (x y : Word), s.Issues (scalarChecks [a, b] [d]) [d, a, b] .free t →
    t.twiceCheck (linksOf [a, b]) = .ok () → t.readS a = .ok (x, u) → u.readS b = .ok (y, v) → v.writeS d (f x y) = .ok w →
    exec i s = .next (w.advance 4).completed

/-- An instruction of one scalar source and a scalar destination, of n bytes. -/
def OneSource (i : Instr) (n : Nat) (d a : SOpd) (f : Word → Word) : Prop :=
  ∀ (s t u v : State) (x : Word), s.Issues (scalarChecks [a] [d]) [d, a] .free t → t.readS a = .ok (x, u) →
    u.writeS d (f x) = .ok v → exec i s = .next (v.advance n).completed

/-- A conditional move: the destination is written when the condition on b holds, and otherwise keeps its value. -/
def ConditionalMove (i : Instr) (d a b : SOpd) (c : Word → Prop) : Prop :=
  ∀ (s t u v : State) (x y : Word), s.Issues (scalarChecks [a, b] [d]) [d, a, b] .free t →
    t.twiceCheck (linksOf [a, b]) = .ok () → t.readS a = .ok (x, u) → u.readS b = .ok (y, v) →
    (¬ c y → exec i s = .next (v.advance 4).completed) ∧
    (∀ w, c y → v.writeS d x = .ok w → exec i s = .next (w.advance 4).completed)

/-- A division: the destination takes f a b; a zero divisor counts EVC6 once, and traps after the instruction where
STATUS.AEN enables it. -/
def Division (i : Instr) (d a b : SOpd) (f : Word → Word → Word) : Prop :=
  ∀ (s t u v w : State) (x y : Word),
    s.Issues (scalarChecks [a, b] [d]) [d, a, b] (if divTrapEnabled s.slot.status then .drain else .free) t →
    t.twiceCheck (linksOf [a, b]) = .ok () → t.readS a = .ok (x, u) → u.readS b = .ok (y, v) → v.writeS d (f x y) = .ok w →
    (y ≠ 0 → exec i s = .next (w.advance 4).completed) ∧
    (y = 0 → raisedEvents w.slot.status [Ev.divZero] = 0 → exec i s = .next ((w.advance 4).count 6 1).completed) ∧
    (y = 0 → raisedEvents w.slot.status [Ev.divZero] ≠ 0 →
      exec i s = .next (((w.advance 4).count 6 1).takeTrap { cause := 0x0400, event := raisedEvents w.slot.status [Ev.divZero] }
        t.trapSource (w.advance 4).slot.here (some (w.advance 4).slot.here)).completed)

/-- A branch: its target is its own address plus four times the displacement. -/
def Branch (i : Instr) (a b : SOpd) (disp : BitVec 14) (c : Word → Word → Prop) : Prop :=
  ∀ (s t u v : State) (x y : Word), s.Issues (scalarChecks [a, b] []) [a, b] .free t →
    t.twiceCheck (linksOf [a, b]) = .ok () → t.readS a = .ok (x, u) → u.readS b = .ok (y, v) →
    (c x y → exec i s = .next (v.jump (v.slot.pc + disp.signExtend 64 * 4)).completed) ∧
    (¬ c x y → exec i s = .next (v.advance 4).completed)

/-- A load of n bytes at the base plus n times the offset. -/
def Load (i : Instr) (m : LoadMode) (n : Nat) (d base : SOpd) (off : BitVec 14) (f : Word → Word) : Prop :=
  ∀ (s t u v w : State) (a x : Word), s.Issues (scalarChecks [base] [d]) [d, base] .load t → t.readS base = .ok (a, u) →
    u.loadWord m (a + off.signExtend 64 * BitVec.ofNat 64 n) n = .ok (x, v) → v.writeS d (f x) = .ok w →
    exec i s = .next (w.advance 4).completed

/-- A store of the low n bytes of D at the base plus n times the offset. -/
def Store (i : Instr) (n : Nat) (d base : SOpd) (off : BitVec 14) : Prop :=
  ∀ (s t u v w : State) (a x : Word), s.Issues (scalarChecks [base, d] []) [d, base] .drain t →
    t.twiceCheck (linksOf [base, d]) = .ok () → t.readS base = .ok (a, u) → u.readS d = .ok (x, v) →
    v.storeWord none (a + off.signExtend 64 * BitVec.ofNat 64 n) n x = .ok w →
    exec i s = .next (w.advance 4).completed

/-- A vector instruction of n bytes: once its checks pass, the registers that it reads are there and the sequencer has
room, its entry is in the sequencer with the scalar values and the mask read now; where nothing else is there and the
stream is not held back its instance then runs, or takes its trap: that it does so in the same step is the model's schedule
(log 6, DESIGN CHOICE; the spec says only when an instance may run). -/
def Vector (i : Instr) (n : Nat) (op : VOp) (x : Ext) (base : Bool) (lit : Option Word) : Prop :=
  ∀ (s t : State) (e : Entry), s.decodeTrap (vectorChecks op x base s.pendingCue) = .ok () →
    s.hazard (offloadReads op x s.pendingCue) = false → s.bodyWaits x = false →
    s.linkWaits (offloadReads op x s.pendingCue) = false → s.slot.seq.entries.length < 16 →
    s.readEntry op x lit = .ok (e, t) →
    let y := t.slot.takeCue
    let q := State.completed { t with slot := ({ y with seq := y.seq.push e } : Slot).advance n }
    (¬ (t.slot.seq = { items := [], opened := none } ∧ t.lag = false) → exec i s = .next q) ∧
    (t.slot.seq = { items := [], opened := none } → t.lag = false →
      (∀ (u : State) (evs : List Ev), runInstance e q = .ok (u, evs) → exec i s = .next (u.vectorDone e evs))
      ∧ ∀ k, runInstance e q = .error (.trap k) → exec i s = .next (q.vioDropped.takeTrap k e.source q.slot.here none))

/-- An instruction of n bytes without operands whose effect is f. -/
def Plain (i : Instr) (n : Nat) (p : Pace) (f : State → State) : Prop :=
  ∀ (s t : State), s.Issues {} [] p t → exec i s = .next ((f t).advance n).completed

end Sys2Proof.Shape

/-! ### Scalar arithmetic (R105-R113) -/

/-- R105, R107, R108: what each instruction of two sources leaves in its destination, for every operand form. -/
def Sys2Proof.Claims.TwoSourceResults : Prop :=
  ∀ (d a b : SOpd) (c : BitVec 6),
    Shape.TwoSource (.add d a b) d a b (fun x y => x + y)
    ∧ Shape.TwoSource (.sub d a b) d a b (fun x y => x - y)
    ∧ Shape.TwoSource (.mul d a b) d a b (fun x y => x * y)
    ∧ Shape.TwoSource (.mulh d a b) d a b (fun x y => BitVec.ofInt 64 (x.toInt * y.toInt / 2 ^ 64))
    ∧ Shape.TwoSource (.and d a b) d a b (fun x y => x &&& y)
    ∧ Shape.TwoSource (.or d a b) d a b (fun x y => x ||| y)
    ∧ Shape.TwoSource (.xor d a b) d a b (fun x y => x ^^^ y)
    ∧ Shape.TwoSource (.andn d a b) d a b (fun x y => x &&& ~~~y)
    ∧ Shape.TwoSource (.sll d a b) d a b (fun x y => x <<< (y.toNat % 64))
    ∧ Shape.TwoSource (.srl d a b) d a b (fun x y => x >>> (y.toNat % 64))
    ∧ Shape.TwoSource (.sra d a b) d a b (fun x y => x.sshiftRight (y.toNat % 64))
    ∧ Shape.TwoSource (.ror d a b) d a b (fun x y => x.rotateRight (y.toNat % 64))
    ∧ Shape.TwoSource (.min d a b) d a b (fun x y => if x.toInt ≤ y.toInt then x else y)
    ∧ Shape.TwoSource (.max d a b) d a b (fun x y => if x.toInt ≥ y.toInt then x else y)
    ∧ Shape.TwoSource (.slt d a b) d a b (fun x y => if x.toInt < y.toInt then 1 else 0)
    ∧ Shape.TwoSource (.sltu d a b) d a b (fun x y => if x.toNat < y.toNat then 1 else 0)
    ∧ Shape.TwoSource (.seq d a b) d a b (fun x y => if x = y then 1 else 0)
    ∧ Shape.TwoSource (.sne d a b) d a b (fun x y => if x ≠ y then 1 else 0)
    ∧ Shape.TwoSource (.fsli d a b c) d a b (fun x y => (x <<< c.toNat) ||| (y >>> (64 - c.toNat)))
    ∧ Shape.TwoSource (.fsri d a b c) d a b (fun x y => (y >>> c.toNat) ||| (x <<< (64 - c.toNat)))

/-- R107, R109-R112: what each instruction of one source leaves in its destination; addi with a literal is 12 bytes
long. -/
def Sys2Proof.Claims.OneSourceResults : Prop :=
  ∀ (d a : SOpd) (imm : BitVec 14) (lit : Word) (c p wm1 : BitVec 6),
    Shape.OneSource (.popc d a) 4 d a (fun x => BitVec.ofNat 64 (popcount x))
    ∧ Shape.OneSource (.clz d a) 4 d a (fun x => BitVec.ofNat 64 (leadingZeros x))
    ∧ Shape.OneSource (.ctz d a) 4 d a (fun x => BitVec.ofNat 64 (trailingZeros x))
    ∧ Shape.OneSource (.brev d a) 4 d a reverseBits
    ∧ Shape.OneSource (.bswap d a) 4 d a reverseBytes
    ∧ Shape.OneSource (.addi d a imm) 4 d a (fun x => x + imm.signExtend 64)
    ∧ Shape.OneSource (.addiLiteral d a lit) 12 d a (fun x => x + lit)
    ∧ Shape.OneSource (.andi d a imm) 4 d a (fun x => x &&& imm.signExtend 64)
    ∧ Shape.OneSource (.ori d a imm) 4 d a (fun x => x ||| imm.signExtend 64)
    ∧ Shape.OneSource (.xori d a imm) 4 d a (fun x => x ^^^ imm.signExtend 64)
    ∧ Shape.OneSource (.slti d a imm) 4 d a (fun x => if x.toInt < imm.toInt then 1 else 0)
    ∧ Shape.OneSource (.slli d a c) 4 d a (fun x => x <<< c.toNat)
    ∧ Shape.OneSource (.srli d a c) 4 d a (fun x => x >>> c.toNat)
    ∧ Shape.OneSource (.srai d a c) 4 d a (fun x => x.sshiftRight c.toNat)
    ∧ Shape.OneSource (.bfx d a p wm1 false) 4 d a (fun x => (x >>> p.toNat) &&& BitVec.ofNat 64 (2 ^ (wm1.toNat + 1) - 1))
    ∧ Shape.OneSource (.bfx d a p wm1 true) 4 d a
        (fun x => ((x >>> p.toNat) <<< (63 - wm1.toNat)).sshiftRight (63 - wm1.toNat))

/-- R108: mkm writes the lane mask of its two sources, which is given bit by bit; R107: what the other bit functions of the
BITS instructions are, bit by bit. -/
def Obligations.BitFunctionsBitByBit : Prop :=
  (∀ x : Word, (∀ i, i < leadingZeros x → x.getLsbD (63 - i) = false)
    ∧ (leadingZeros x < 64 → x.getLsbD (63 - leadingZeros x) = true) ∧ leadingZeros x ≤ 64)
  ∧ (∀ x : Word, (∀ i, i < trailingZeros x → x.getLsbD i = false)
    ∧ (trailingZeros x < 64 → x.getLsbD (trailingZeros x) = true) ∧ trailingZeros x ≤ 64)
  ∧ (∀ (x : Word) (i : Nat), i < 64 → (reverseBits x).getLsbD i = x.getLsbD (63 - i))
  ∧ (∀ (x : Word) (i : Nat), i < 8 → (reverseBytes x).extractLsb' (8 * i) 8 = x.extractLsb' (8 * (7 - i)) 8)
  ∧ (∀ d a b : SOpd, Shape.TwoSource (.mkm d a b) d a b laneMask)
  ∧ (∀ (n k : Word) (i : Nat), i < 64 →
      (laneMask n k).getLsbD i = decide (min k.toNat 64 ≤ i ∧ i < min (min k.toNat 64 + min n.toNat 64) 64))
  ∧ (∀ x : Word, popcount x ≤ 64 ∧ (popcount x = 0 ↔ x = 0)
      ∧ ∀ i, i < 64 → x.getLsbD i = false → popcount (x ||| (1#64 <<< i)) = popcount x + 1)

/-- R105: cmovz and cmovn. -/
def Sys2Proof.Claims.ConditionalMoves : Prop :=
  ∀ (d a b : SOpd), Shape.ConditionalMove (.cmovz d a b) d a b (fun y => y = 0)
    ∧ Shape.ConditionalMove (.cmovn d a b) d a b (fun y => y ≠ 0)

/-- R105: addsat clamps the signed sum to 64 bits, and a clamp counts EVC14. -/
def Sys2Proof.Claims.AddsatClamps : Prop :=
  ∀ (d a b : SOpd) (s t u v w : State) (x y r : Word), s.Issues (scalarChecks [a, b] [d]) [d, a, b] .free t →
    t.twiceCheck (linksOf [a, b]) = .ok () → t.readS a = .ok (x, u) → u.readS b = .ok (y, v) →
    r.toInt = max (-2 ^ 63) (min (2 ^ 63 - 1) (x.toInt + y.toInt)) → v.writeS d r = .ok w →
    exec (.addsat d a b) s
      = .next ((w.count 14 (if r.toInt = x.toInt + y.toInt then 0 else 1)).advance 4).completed

/-- R103, R106: the four divisions, with a zero divisor and with −2^63 over −1. -/
def Sys2Proof.Claims.DivisionResults : Prop :=
  ∀ (d a b : SOpd),
    Shape.Division (.div d a b) d a b (fun x y =>
      if y = 0 then BitVec.allOnes 64 else if x.toInt = -2 ^ 63 ∧ y.toInt = -1 then x else BitVec.ofInt 64 (x.toInt.tdiv y.toInt))
    ∧ Shape.Division (.divu d a b) d a b (fun x y => if y = 0 then BitVec.allOnes 64 else BitVec.ofNat 64 (x.toNat / y.toNat))
    ∧ Shape.Division (.rem d a b) d a b (fun x y => if y = 0 then x else BitVec.ofInt 64 (x.toInt.tmod y.toInt))
    ∧ Shape.Division (.remu d a b) d a b (fun x y => if y = 0 then x else BitVec.ofNat 64 (x.toNat % y.toNat))

/-- R112, R113: bfi replaces a field of D; lpc gives the page of its own address plus P pages. -/
def Sys2Proof.Claims.FieldInsertAndPageAddress : Prop :=
  (∀ (d a : SOpd) (p wm1 : BitVec 6) (s t u v w : State) (x old r : Word), p.toNat + wm1.toNat < 64 →
    s.Issues (scalarChecks [a] [d]) [d, a] .free t → t.readS a = .ok (x, u) → u.readS d = .ok (old, v) →
    (∀ i, i < 64 → r.getLsbD i
      = if p.toNat ≤ i ∧ i < p.toNat + wm1.toNat + 1 then x.getLsbD (i - p.toNat) else old.getLsbD i) →
    v.writeS d r = .ok w → exec (.bfi d a p wm1) s = .next (w.advance 4).completed)
  ∧ (∀ (d : SOpd) (page : BitVec 19) (s t u : State), s.Issues (scalarChecks [] [d]) [d] .free t →
    t.writeS d ((t.slot.pc &&& ~~~0xFFF) + page.signExtend 64 * 4096) = .ok u →
    exec (.lpc d page) s = .next (u.advance 4).completed)

/-! ### Branches and jumps (R115, R116) -/

/-- R115: when each branch is taken, and where it goes. -/
def Sys2Proof.Claims.BranchesTakenWhen : Prop :=
  ∀ (a b : SOpd) (disp : BitVec 14),
    Shape.Branch (.beq a b disp) a b disp (fun x y => x = y)
    ∧ Shape.Branch (.bne a b disp) a b disp (fun x y => x ≠ y)
    ∧ Shape.Branch (.blt a b disp) a b disp (fun x y => x.toInt < y.toInt)
    ∧ Shape.Branch (.bge a b disp) a b disp (fun x y => x.toInt ≥ y.toInt)
    ∧ Shape.Branch (.bltu a b disp) a b disp (fun x y => x.toNat < y.toNat)
    ∧ Shape.Branch (.bgeu a b disp) a b disp (fun x y => x.toNat ≥ y.toNat)
    ∧ Shape.Branch (.bany a b disp) a b disp (fun x y => x &&& (if b = .w 0 then BitVec.allOnes 64 else y) ≠ 0)
    ∧ Shape.Branch (.ball a b disp) a b disp (fun x y =>
        x &&& (if b = .w 0 then BitVec.allOnes 64 else y) = (if b = .w 0 then BitVec.allOnes 64 else y))
    ∧ Shape.Branch (.bnone a b disp) a b disp (fun x y => x &&& (if b = .w 0 then BitVec.allOnes 64 else y) = 0)

/-- R116: j, jal and jalr; a target of jalr that is not a multiple of 4 traps before the destination is written. -/
def Sys2Proof.Claims.JumpsGoToTheirTargets : Prop :=
  (∀ (disp : BitVec 24) (s t : State), s.Issues {} [] .free t →
    exec (.j disp) s = .next (t.jump (t.slot.pc + disp.signExtend 64 * 4)).completed)
  ∧ (∀ (disp : BitVec 24) (s t u : State), s.Issues {} [.w 23] .free t → t.writeS (.w 23) (t.slot.pc + 4) = .ok u →
    exec (.jal disp) s = .next (u.jump (t.slot.pc + disp.signExtend 64 * 4)).completed)
  ∧ (∀ (d a : SOpd) (imm : BitVec 14) (s t u : State) (x : Word), s.Issues (scalarChecks [a] [d]) [d, a] .free t →
    t.readS a = .ok (x, u) →
    ((x + imm.signExtend 64 * 4).toNat % 4 ≠ 0 →
      exec (.jalr d a imm) s = .next (t.scalarTrap { cause := 0x0200, addr := x + imm.signExtend 64 * 4 }))
    ∧ (∀ v, (x + imm.signExtend 64 * 4).toNat % 4 = 0 → u.writeS d (u.slot.pc + 4) = .ok v →
      exec (.jalr d a imm) s = .next (v.jump (x + imm.signExtend 64 * 4)).completed))

/-! ### Scalar operands (R15, R18, R29) -/

/-- R15: w0 reads as zero and ignores writes; every other register reads what was last written to it, and a write
changes no other register. -/
def Sys2Proof.Claims.ScalarRegisterZero : Prop :=
  ∀ (s : State) (x : Word) (m n : Fin 24),
    s.readS (.w 0) = .ok (0, s) ∧ s.writeS (.w 0) x = .ok s
    ∧ ∃ t, s.writeS (.w n) x = .ok t ∧ t.readS (.w m)
        = .ok (if m = 0 then 0 else if m = n then x else (s.slot.w[m]), t)

/-- R18, R29: q0 and q1 take a push at their end while they hold fewer than 8 entries, q2 and q3 give their oldest
entry; an empty queue and a full one block; the other direction is a reserved operand. -/
def Sys2Proof.Claims.ScalarQueueOperands : Prop :=
  ∀ (s : State) (x : Word),
    (s.slot.q0.length < 8 →
      ∃ t, s.writeS (.q 0) x = .ok t ∧ t.slot.q0.map (·.val) = s.slot.q0.map (·.val) ++ [x] ∧ t.slot.q1 = s.slot.q1)
    ∧ (s.slot.q1.length < 8 →
      ∃ t, s.writeS (.q 1) x = .ok t ∧ t.slot.q1.map (·.val) = s.slot.q1.map (·.val) ++ [x] ∧ t.slot.q0 = s.slot.q0)
    ∧ (s.slot.q0.length ≥ 8 → s.writeS (.q 0) x = .error (.block (.queue 0)))
    ∧ (s.slot.q1.length ≥ 8 → s.writeS (.q 1) x = .error (.block (.queue 1)))
    ∧ (∀ y ys, s.slot.q2 = y :: ys → ∃ t, s.readS (.q 2) = .ok (y, t) ∧ t.slot.q2 = ys ∧ t.slot.q3 = s.slot.q3)
    ∧ (∀ y ys, s.slot.q3 = y :: ys → ∃ t, s.readS (.q 3) = .ok (y, t) ∧ t.slot.q3 = ys ∧ t.slot.q2 = s.slot.q2)
    ∧ (s.slot.q2 = [] → s.readS (.q 2) = .error (.block (.queue 2)))
    ∧ (s.slot.q3 = [] → s.readS (.q 3) = .error (.block (.queue 3)))
    ∧ s.readS (.q 0) = trapOf 0x0102 ∧ s.readS (.q 1) = trapOf 0x0102
    ∧ s.writeS (.q 2) x = trapOf 0x0102 ∧ s.writeS (.q 3) x = trapOf 0x0102

/-- The frame of the register forms (R105-R113): with registers as operands, nothing but the destination, the PC and
the marks of the context's own progress changes: no other register, no queue, no bit of STATUS, no vector register, no
counter, no byte of memory, no other core. -/
def Obligations.RegisterFormFrame : Prop :=
  ∀ (d a b : Fin 24) (imm : BitVec 14) (s : State) (i : Instr),
    i ∈ [.add (.w d) (.w a) (.w b), .sub (.w d) (.w a) (.w b), .mul (.w d) (.w a) (.w b), .mulh (.w d) (.w a) (.w b),
      .and (.w d) (.w a) (.w b), .or (.w d) (.w a) (.w b), .xor (.w d) (.w a) (.w b), .sll (.w d) (.w a) (.w b),
      .srl (.w d) (.w a) (.w b), .sra (.w d) (.w a) (.w b), .slt (.w d) (.w a) (.w b), .seq (.w d) (.w a) (.w b),
      .popc (.w d) (.w a), .clz (.w d) (.w a), .addi (.w d) (.w a) imm, .andi (.w d) (.w a) imm, .xori (.w d) (.w a) imm] →
    s.Clear → pp s.slot.status = false →
    ∃ t, exec i s = .next t ∧ (∀ n, n ≠ d → t.slot.w[n] = s.slot.w[n]) ∧ t.slot.pc = s.slot.pc + 4
      ∧ t.slot.v = s.slot.v ∧ t.slot.status = s.slot.status ∧ t.slot.cue = s.slot.cue ∧ t.slot.seq = s.slot.seq
      ∧ t.slot.q0 = s.slot.q0 ∧ t.slot.q1 = s.slot.q1 ∧ t.slot.q2 = s.slot.q2 ∧ t.slot.q3 = s.slot.q3
      ∧ t.core = s.core ∧ t.cores = s.cores ∧ t.kernels = s.kernels ∧ t.flight = s.flight ∧ t.ctls = s.ctls
      ∧ t.tensors = s.tensors ∧ ∀ k, Memory.get t.mem k = Memory.get s.mem k

/-- R105, R107-R112: what the instructions of one and of two scalar sources leave in their destinations. -/
def Obligations.ScalarResults : Prop :=
  Claims.TwoSourceResults ∧ Claims.OneSourceResults

/-- R103, R105, R106, R112, R113: the conditional moves, addsat, the divisions, bfi and lpc. -/
def Obligations.ConditionalMovesClampsDivisionsAndFields : Prop :=
  Claims.ConditionalMoves ∧ Claims.AddsatClamps ∧ Claims.DivisionResults ∧ Claims.FieldInsertAndPageAddress

/-- R115, R116: the branches and the jumps. -/
def Obligations.BranchesAndJumps : Prop :=
  Claims.BranchesTakenWhen ∧ Claims.JumpsGoToTheirTargets

/-- R15, R18, R29: the scalar registers and the operand queues. -/
def Obligations.ScalarOperands : Prop :=
  Claims.ScalarRegisterZero ∧ Claims.ScalarQueueOperands

/-! ### Memory (R14, R117, R118, R251) -/

/-- R117: the width, the extension and the address of every base load. -/
def Sys2Proof.Claims.LoadsReadAndExtend : Prop :=
  ∀ (d base : SOpd) (off : BitVec 14),
    Shape.Load (.ldB d base off) .plain 1 d base off (fun x => (x.setWidth 8).signExtend 64)
    ∧ Shape.Load (.ldBz d base off) .plain 1 d base off (fun x => x)
    ∧ Shape.Load (.ldH d base off) .plain 2 d base off (fun x => (x.setWidth 16).signExtend 64)
    ∧ Shape.Load (.ldHz d base off) .plain 2 d base off (fun x => x)
    ∧ Shape.Load (.ldW d base off) .plain 4 d base off (fun x => (x.setWidth 32).signExtend 64)
    ∧ Shape.Load (.ldWz d base off) .plain 4 d base off (fun x => x)
    ∧ Shape.Load (.ldD d base off) .plain 8 d base off (fun x => x)
    ∧ Shape.Load (.ldInv d base off) .invariant 8 d base off (fun x => x)

/-- R117: the width and the address of every base store. -/
def Sys2Proof.Claims.StoresWriteTheirWidth : Prop :=
  ∀ (d base : SOpd) (off : BitVec 14),
    Shape.Store (.stB d base off) 1 d base off ∧ Shape.Store (.stH d base off) 2 d base off
    ∧ Shape.Store (.stW d base off) 4 d base off ∧ Shape.Store (.stD d base off) 8 d base off

/-- R117, R251: in the local window a plain load gives the n little-endian bytes of the core's own scratchpad, where no
write that the context need not see yet touches them, and changes nothing but what it lets the vector loads before it
that are still pending return (R31, R275), and that what engine commands have written under a READY tile that a vldt still
pending reads counts for the context (R274). -/
def Sys2Proof.Claims.WindowLoadGivesScratchpadBytes : Prop :=
  ∀ (s t : State) (off n : Nat), s.coreId < 18432 → n ∈ [1, 2, 4, 8] → off % n = 0 → off + n ≤ 0x60000 → s.inImage s.coreId off n = false →
    s.flips = [] → t = (if s.underTile (spKey s.coreId off) n then s.tileSeen s.self (spKey s.coreId off) n else s) →
    newerThan (t.counts t.self) (t.hist.filter (·.touches (spKey s.coreId off) n)) = [] →
    s.loadWord .plain (BitVec.ofNat 64 (0xFFFFFFFFF00000 + off)) n
      = .ok (BitVec.ofNat 64 (ofBytes (Memory.bytes s.mem (spKey s.coreId off) n)), t.bounding (spKey s.coreId off) n t.seq)

/-- R117, R251: a store of n bytes to the local window leaves exactly its bytes in the core's own scratchpad: they read
back as the low n bytes of the value, and every other byte of memory is as before. -/
def Sys2Proof.Claims.StoreChangesExactlyItsBytes : Prop :=
  ∀ (s t : State) (off n : Nat) (x : Word), s.coreId < 18432 → n ∈ [1, 2, 4, 8] → Memory.wf s.mem = true → off + n ≤ 0x60000 →
    s.storeWord none (BitVec.ofNat 64 (0xFFFFFFFFF00000 + off)) n x = .ok t →
    Memory.bytes t.mem (spKey s.coreId off) n = toBytes n x.toNat
    ∧ ∀ k, k < spKey s.coreId off ∨ spKey s.coreId off + n ≤ k → Memory.get t.mem k = Memory.get s.mem k

/-- The same at any address: the bytes stored to are those of the key that the store's address resolves to, and no other
byte of memory changes, whatever the translation, the protection at rest and an armed injection do. -/
def Obligations.StoreFrameAtAnyAddress : Prop :=
  ∀ (s t u : State) (va x : Word) (n key : Nat) (alone : Option Scope), Memory.wf s.mem = true →
    s.resolve false va n .store = .ok (key, u) → isIo key = false → s.storeWord alone va n x = .ok t →
    Memory.bytes t.mem key n = toBytes n x.toNat
    ∧ (∀ k, k < key ∨ key + n ≤ k → Memory.get t.mem k = Memory.get s.mem k)
    ∧ t.slot = s.slot

/-- R118: a load or a store at an address that is not a multiple of its size traps with misaligned access and ADDR; the
registers and memory it would have changed are as they were when the trap is taken. -/
def Sys2Proof.Claims.MisalignedAccessTraps : Prop :=
  ∀ (d base : SOpd) (off : BitVec 14) (s t u : State) (a : Word),
    (∀ (i : Instr) (n : Nat), (i, n) ∈ [(Instr.ldH d base off, 2), (.ldHz d base off, 2), (.ldW d base off, 4), (.ldWz d base off, 4),
        (.ldD d base off, 8), (.ldInv d base off, 8)] →
      s.Issues (scalarChecks [base] [d]) [d, base] .load t → t.readS base = .ok (a, u) →
      (a + off.signExtend 64 * BitVec.ofNat 64 n).toNat % n ≠ 0 →
      exec i s = .next (t.scalarTrap { cause := 0x0200, addr := a + off.signExtend 64 * BitVec.ofNat 64 n }))
    ∧ (∀ (i : Instr) (n : Nat) (v : State) (x : Word), (i, n) ∈ [(Instr.stH d base off, 2), (.stW d base off, 4), (.stD d base off, 8)] →
      s.Issues (scalarChecks [base, d] []) [d, base] .drain t → t.twiceCheck (linksOf [base, d]) = .ok () →
      t.readS base = .ok (a, u) → u.readS d = .ok (x, v) →
      (a + off.signExtend 64 * BitVec.ofNat 64 n).toNat % n ≠ 0 →
      exec i s = .next (t.scalarTrap { cause := 0x0200, addr := a + off.signExtend 64 * BitVec.ofNat 64 n }))

/-- R14, R251, R375: what the address alone makes trap: bits [63:56], bytes past the scratchpad in the local window,
with ADDR the first such address, and bytes of a bound register image. -/
def Sys2Proof.Claims.AddressesThatTrap : Prop :=
  ∀ (s : State) (vec : Bool) (va : Word) (n : Nat) (k : Acc),
    (va.toNat ≥ 2 ^ 56 → s.resolve vec va n k = trapAt 0x0B03 va)
    ∧ (∀ off, va.toNat = 0xFFFFFFFFF00000 + off → off < 2 ^ 20 → 1 ≤ n → off + n > 0x60000 →
        s.resolve vec va n k = trapAt 0x0500 (BitVec.ofNat 64 (0xFFFFFFFFF00000 + max off 0x60000)))
    ∧ (∀ off, va.toNat = 0xFFFFFFFFF00000 + off → off + n ≤ 0x60000 → k ≠ .fetch → s.inImage s.coreId off n = true →
        s.resolve vec va n k = trapAt 0x0500 va)
    ∧ (∀ off, va.toNat = 0xFFFFFFFFF00000 + off → off + n ≤ 0x60000 → (k = .fetch ∨ s.inImage s.coreId off n = false) →
        s.resolve vec va n k = .ok (spKey s.coreId off, s))

/-- R120, R121: the scoped loads and stores, with the halves that ACQ and REL ask for around the access. -/
def Sys2Proof.Claims.ScopedAccesses : Prop :=
  ∀ (x : Ext) (s t : State),
    (∀ (i : Instr) (n : Nat) (u v w y : State) (a r : Word), (i, n) ∈ [(Instr.ldxW x, 4), (.ldxD x, 8), (.amldD x, 8)] →
      s.Issues (specChecks [x.oa] [x.od]) (scalarsOf [x.od, x.oa]) (if x.acq || x.rel then .drain else .load) t →
      t.readS (opdOf x.oa) = .ok (a, u) → u.relFlag x = .ok v →
      v.loadWord (.scoped x.scp) (a + x.imm.signExtend 64) n = .ok (r, w) → (w.acqFlag x).writeS (opdOf x.od) (sextBytes n r) = .ok y →
      exec i s = .next (y.advance 12).completed)
    ∧ (∀ (i : Instr) (p : Spec) (n : Nat) (off : Word) (u v w y : State) (a r : Word),
      (i, p, n, off) ∈ [(Instr.stxW x, x.od, 4, x.imm.signExtend 64), (.stxD x, x.od, 8, x.imm.signExtend 64), (.amstD x, x.ob, 8, 0)] →
      s.Issues (specChecks [x.oa, p] []) (scalarsOf [x.oa, p]) .drain t → t.twiceCheck (linksOf (scalarsOf [x.oa, p])) = .ok () →
      t.readS (opdOf x.oa) = .ok (a, u) → u.readS (opdOf p) = .ok (r, v) → v.relFlag x = .ok w →
      w.storeWord (some x.scp) (a + off) n r = .ok y → exec i s = .next ((y.acqFlag x).advance 12).completed)

/-- R122-R124: each atomic reads the old value, writes its function of the old value, OB and OC, and gives the old value
sign-extended to its destination. -/
def Sys2Proof.Claims.AtomicsUpdateAndReturnOld : Prop :=
  ∀ (x : Ext) (s t u v w y z r : State) (i : Instr) (n : Nat) (cas : Bool)
    (carried : Option AtomicReq) (f : Word → Word → Word → Word) (a b c old : Word),
    (i, n, cas, carried, f) ∈ [
      (Instr.amaddW x, 4, false, some .fetchAdd, fun o b _ => o + b), (.amaddD x, 8, false, some .fetchAdd, fun o b _ => o + b),
      (.amminW x, 4, false, none, fun o b _ => if ((o.setWidth 32).toInt ≤ (b.setWidth 32).toInt) then o else b),
      (.amminD x, 8, false, none, fun o b _ => if o.toInt ≤ b.toInt then o else b),
      (.ammaxW x, 4, false, none, fun o b _ => if ((o.setWidth 32).toInt ≥ (b.setWidth 32).toInt) then o else b),
      (.ammaxD x, 8, false, none, fun o b _ => if o.toInt ≥ b.toInt then o else b),
      (.amcasW x, 4, true, some .cas, fun o b c => if o = (c.setWidth 32).setWidth 64 then b else o),
      (.amcasD x, 8, true, some .cas, fun o b c => if o = c then b else o),
      (.amandD x, 8, false, none, fun o b _ => o &&& b), (.amorD x, 8, false, none, fun o b _ => o ||| b),
      (.amxorD x, 8, false, none, fun o b _ => o ^^^ b), (.amswapD x, 8, false, some .swap, fun _ b _ => b),
      (.amfaddW x, 4, false, none, fun o b _ => BitVec.ofNat 64 (fadd (o.setWidth 32).toNat (b.setWidth 32).toNat))] →
    s.Issues (specChecks ([x.oa, x.ob] ++ if cas then [x.oc] else []) [x.od])
      (scalarsOf ([x.od, x.oa, x.ob] ++ if cas then [x.oc] else [])) .drain t →
    t.twiceCheck (linksOf (scalarsOf ([x.oa, x.ob] ++ if cas then [x.oc] else []))) = .ok () →
    t.readS (opdOf x.oa) = .ok (a, u) → u.readS (opdOf x.ob) = .ok (b, v) →
    (if cas then v.readS (opdOf x.oc) else .ok (0, v)) = .ok (c, w) → w.relFlag x = .ok y →
    y.atomic x.scp carried a n f b c = .ok (old, z) → (z.acqFlag x).writeS (opdOf x.od) (sextBytes n old) = .ok r →
    exec i s = .next (r.advance 12).completed

/-- R122, R276: an atomic on the local window is one read and one write of its n bytes: it gives the bytes that were
there, leaves its function of them, and changes no other byte. -/
def Obligations.WindowAtomicIsReadThenWrite : Prop :=
  ∀ (s t : State) (off n : Nat) (x : Scope) (carried : Option AtomicReq) (f : Word → Word → Word → Word)
    (b c old : Word), s.coreId < 18432 → n ∈ [4, 8] →
    off + n ≤ 0x60000 →
    s.flips = [] → Memory.wf s.mem = true →
    s.atomic x carried (BitVec.ofNat 64 (0xFFFFFFFFF00000 + off)) n f b c = .ok (old, t) →
    old = BitVec.ofNat 64 (ofBytes (Memory.bytes s.mem (spKey s.coreId off) n))
    ∧ Memory.bytes t.mem (spKey s.coreId off) n = toBytes n (f old b c).toNat
    ∧ ∀ k, k < spKey s.coreId off ∨ spKey s.coreId off + n ≤ k → Memory.get t.mem k = Memory.get s.mem k

/-! ### Decoding order, the cue and vloop (R27, R57, R176, R177) -/

/-- R57: of the checks that the decoded word and the state give, the first in the order of the rule is the trap. -/
def Obligations.DecodingChecksInOrder : Prop :=
  ∀ (s : State) (c : Checks),
    (c.reserved = true → s.decodeTrap c = trapOf 0x0101)
    ∧ (c.reserved = false → pp s.slot.status = true → c.formats = false → s.decodeTrap c = trapOf 0x0103)
    ∧ (c.reserved = false → (pp s.slot.status = false ∨ c.formats = true) → c.operand = true → s.decodeTrap c = trapOf 0x0102)
    ∧ (c.reserved = false → (pp s.slot.status = false ∨ c.formats = true) → c.operand = false → c.pair = true →
        s.decodeTrap c = trapOf 0x0105)
    ∧ (c.reserved = false → (pp s.slot.status = false ∨ c.formats = true) → c.operand = false → c.pair = false →
        c.queue = true → up s.slot.status = true → s.decodeTrap c = trapOf 0x0108)
    ∧ (c.reserved = false → (pp s.slot.status = false ∨ c.formats = true) → c.operand = false → c.pair = false →
        (c.queue = false ∨ up s.slot.status = false) → s.decodeTrap c = .ok ())

/-- R27: a cue sets the latch and PP and nothing else; a second cue traps at the second. -/
def Sys2Proof.Claims.CueLatch : Prop :=
  ∀ (pay : BitVec 24) (s t : State),
    (pp s.slot.status = false → s.Issues {} [] .free t →
      exec (.cue pay) s = .next
        (State.advance { t with slot := { t.slot with cue := pay, status := t.slot.status ||| 0x4000 } } 4).completed)
    ∧ (pp s.slot.status = true → exec (.cue pay) s = .next (s.scalarTrap { cause := 0x0104 }))

/-- R176, R177: vloop opens a body of k entries to be run n times, and closes one still open. -/
def Sys2Proof.Claims.VloopOpensABody : Prop :=
  (∀ (k : BitVec 5) (n : BitVec 9) (s t : State), s.Issues {} [] .free t →
    exec (.vloop k n) s = .next (State.advance { t.closeBody with slot := { t.closeBody.slot with seq := { t.closeBody.slot.seq with
      opened := some { base := t.slot.pc, n := n.toNat, left := k.toNat, body := [], at_ := t.slot.here } } } } 4).completed)
  ∧ (∀ (k : BitVec 5) (a : SOpd) (s t u : State) (x : Word), s.Issues (scalarChecks [a] []) [a] .free t → t.readS a = .ok (x, u) →
    exec (.vloopRegister k a) s = .next (State.advance { u.closeBody with slot := { u.closeBody.slot with seq := { u.closeBody.slot.seq with
      opened := some { base := u.slot.pc, n := (x.setWidth 32).toNat, left := k.toNat, body := [], at_ := u.slot.here } } } } 4).completed)

/-! ### Control, traps and workspaces (R12, R34-R41, R131-R137) -/

/-- R42, R43, R131: yield passes a yield point and goes on. That an ACTIVE context gives up the issue slot there is the model's
choice (log 47: R42 says only that the core may issue another context). -/
def Sys2Proof.Claims.YieldGoesOn : Prop :=
  (∀ (s t : State), s.Issues {} [] .drain t → exec .yield s = .next (t.yieldPoint.advance 4).completed)
  ∧ (∀ t : State, t.yieldPoint.slot.par.wd = t.cycle ∧ (t.slot.st = .active → t.slot.par.waiting = none → t.yieldPoint.slot.par.issues = false))
  ∧ ∀ t : State, t.yieldPoint = t.setPar { t.slot.par with issues := t.yieldPoint.slot.par.issues, wd := t.cycle }

/-- R132: a wait that its deadline has ended gives 0 and one that a wake has ended gives 1, both keeping in the latch a wake that was posted
since; one that finds the latch set clears it and gives 1; one whose deadline is here gives 0; any other one leaves the context WAITING at
its instruction. A due alarm of the wake form has posted its wake (R405). -/
def Sys2Proof.Claims.WaitEndsByWakeOrDeadline : Prop :=
  ∀ (d a : SOpd) (s t r u v : State) (x : Word), s.Issues (scalarChecks [a] [d]) [d, a] .drain t → t.readS a = .ok (x, r) →
    u = { r with slot := r.slot.rung r.timeBase r.cycle } →
    (∀ (latch : Bool) (y : Word),
      (u.slot.par.timedOut = true ∧ latch = u.slot.par.wake ∧ y = 0
        ∨ u.slot.par.timedOut = false ∧ u.slot.par.woke = true ∧ latch = u.slot.par.wake ∧ y = 1
        ∨ u.slot.par.timedOut = false ∧ u.slot.par.woke = false ∧ u.slot.par.wake = true ∧ latch = false ∧ y = 1
        ∨ u.slot.par.timedOut = false ∧ u.slot.par.woke = false ∧ u.slot.par.wake = false ∧ x.toNat ≤ u.timeBase ∧ latch = false ∧ y = 0) →
      (State.setPar u.yieldPoint { u.yieldPoint.slot.par with
        wake := latch, waiting := none, timedOut := false, woke := false }).writeS d y = .ok v →
      exec (.wait d a) s = .next (v.advance 4).completed)
    ∧ (u.slot.par.timedOut = false → u.slot.par.woke = false → u.slot.par.wake = false → u.timeBase < x.toNat →
      ∃ y, exec (.wait d a) s = .next y ∧ y.slot.st = .waiting ∧ y.slot.pc = t.slot.pc ∧ y.slot.w = t.slot.w ∧ y.mem = t.mem)

/-- R133, R188: end empties the queues, counting what they held in EVC11, clears UP, and leaves the slot IDLE, its
registers and memory as they were. -/
def Sys2Proof.Claims.EndLeavesTheSlotIdle : Prop :=
  ∀ (s t : State), s.Issues {} [] .drain t →
    ∃ u, exec .endAct s = .next u ∧ u.slot.st = .idle ∧ u.slot.q0 = [] ∧ u.slot.q1 = [] ∧ u.slot.q2 = [] ∧ u.slot.q3 = []
      ∧ up u.slot.status = false ∧ u.slot.w = t.slot.w ∧ u.slot.v = t.slot.v ∧ u.mem = t.mem
      ∧ u.core.evc = (t.count 11 (t.slot.q0.length + t.slot.q1.length + t.slot.q2.length + t.slot.q3.length)).core.evc

/-- R34, R35, R134: the software trap is an upcall after the instruction: UP is set, PP and the latch are clear, the
queues empty, the PC at UVEC's handler, the registers as they were, and the record holds the cause, EPC, IPC and the
trap's word. The vector word holds no uncorrectable error. -/
def Obligations.TrapEntersTheUpcall : Prop :=
  ∀ (code : BitVec 15) (s t v : State) (h : Word) (wp : Nat), s.Issues {} [] .drain t → s.slot.q0 = [] → s.slot.q1 = [] →
    up s.slot.status = false → t.slot.wp.toNat = wp → wp % 4096 = 0 → wp ≤ 0x5F000 → Memory.wf t.mem = true →
    t.wsWord 0x9F8 = h → h ≠ 0 → h.toNat % 4 = 0 → h.toNat < 2 ^ 56 →
    (t.advance 4).checkWs 0x9F8 8 = .ok v →
    ∃ u, exec (.trap code) s = .next u ∧ u.slot.pc = h ∧ up u.slot.status = true ∧ pp u.slot.status = false ∧ u.slot.cue = 0
      ∧ u.slot.q0 = [] ∧ u.slot.q1 = [] ∧ u.slot.q2 = [] ∧ u.slot.q3 = [] ∧ u.slot.w = t.slot.w ∧ u.slot.v = t.slot.v
      ∧ u.wsWord 0x900 = 0x0600 ∧ u.wsWord 0x908 = t.slot.pc + 4 ∧ u.wsWord 0x928 = t.slot.pc ∧ u.wsWord 0x930 = 0
      ∧ u.wsWord 0x910 = (t.slot.ir.getD 1 0) ++ (t.slot.ir.getD 0 0)
      ∧ u.wsWord 0x970 = BitVec.ofNat 64 (t.slot.q2.length + t.slot.q3.length * 2 ^ 16) ∧ u.wsWord 0x9F8 = h

/-- R39: a trap raised while UP is 1 is no upcall: the context becomes STOPPED with cause 0x0F00 and the original cause
is reported; the record of the upcall keeps its contents. -/
def Sys2Proof.Claims.TrapDuringAnUpcallStops : Prop :=
  ∀ (s : State) (k : Trap) (src : TrapSource) (cur : Boundary), up s.slot.status = true → k.cause.toNat / 256 ≠ 0x0E →
    Memory.wf s.mem = true → s.slot.wp.toNat ≤ 0x5F000 →
    (s.takeTrap k src cur none).slot.st = .stopped ∧ (s.takeTrap k src cur none).slot.par.stopped = 0x0F00
    ∧ (∃ r, (s.takeTrap k src cur none).events = s.events ++ [.stop r] ∧ r.cause = 0x0F00 ∧ r.orig = k.cause)
    ∧ ∀ i, i < 256 → Memory.get (s.takeTrap k src cur none).mem (spKey s.coreId (s.slot.wp.toNat + 0x900 + i))
      = Memory.get s.mem (spKey s.coreId (s.slot.wp.toNat + 0x900 + i))

/-- R39, R354: a trap that UVEC must deliver stops the context with cause 0x0F01 where UVEC is 0, not a multiple of 4,
or has bits [63:56]; R266, R367: an uncorrectable error in the word that holds it, where the trap goes by it, is a machine
check, which stops the context with its own cause. -/
def Sys2Proof.Claims.BadUpcallVectorStops : Prop :=
  ∀ (s : State) (k : Trap) (src : TrapSource) (cur : Boundary), up s.slot.status = false → k.cause.toNat / 256 ≠ 0x0E →
    k.cause ≠ 0x0702 →
    (∀ t, s.checkWs 0x9F8 8 = .ok t → (k.cause = 0x0B00 → s.core.pfvec = 0) →
      (s.wsWord 0x9F8 = 0 ∨ (s.wsWord 0x9F8).toNat % 4 ≠ 0 ∨ (s.wsWord 0x9F8).toNat ≥ 2 ^ 56) →
      (s.takeTrap k src cur none).slot.st = .stopped ∧ (s.takeTrap k src cur none).slot.par.stopped = 0x0F01)
    ∧ ∀ m : Trap, (k.cause = 0x0B00 → s.core.pfvec = 0) → s.checkWs 0x9F8 8 = .error (.trap m) →
      (s.takeTrap k src cur none).slot.st = .stopped ∧ (s.takeTrap k src cur none).slot.par.stopped = m.cause

/-- R38: upret with UP = 0 traps with 0x0107; with UP = 1, no page-fault slot of the workspace, no loop in the record and
a good record without an uncorrectable error, it restores STATUS, the latch, q2, q3 and the PC from the record and
changes no register and no memory. -/
def Sys2Proof.Claims.UpretRestoresFromTheRecord : Prop :=
  ∀ (s t : State), s.Issues {} [] .drain t →
    (up t.slot.status = false → exec .upret s = .next (t.scalarTrap { cause := 0x0107 }))
    ∧ (∀ v, up t.slot.status = true → t.checkWs 0x900 0xB8 = .ok v → t.faultSlot = none → field (t.wsWord 0x948) 16 5 = 0 →
      queueCountOk (t.wsWord 0x970) = true →
      rmReserved (rmField (t.wsWord 0x938)) = false →
      ∃ u, exec .upret s = .next u ∧ u.slot.pc = t.wsWord 0x908 ∧ up u.slot.status = false
        ∧ u.slot.status = t.wsWord 0x938 &&& 0x0000007F00005E00 ∧ u.slot.cue = (t.wsWord 0x940).setWidth 24
        ∧ u.slot.q2 = ((List.range 4).map fun i => t.wsWord (0x978 + 8 * i)).take (field (t.wsWord 0x970) 0 3)
        ∧ u.slot.q3 = ((List.range 4).map fun i => t.wsWord (0x998 + 8 * i)).take (field (t.wsWord 0x970) 16 3)
        ∧ u.slot.w = t.slot.w ∧ u.slot.v = t.slot.v ∧ u.mem = t.mem)

/-- R361: while its page-fault slot has DONE = 0, upret waits at its instruction; once DONE is 1 it clears V, and a refused
resolution is kept for the instruction and the address that the record names. -/
def Sys2Proof.Claims.UpretWaitsForTheNotice : Prop :=
  ∀ (s t v : State) (i : Fin 16), s.Issues {} [] .drain t → up t.slot.status = true → t.checkWs 0x900 0xB8 = .ok v →
    t.faultSlot = some i →
    ((t.core.pfe[i]).getLsbD 62 = false →
      ∃ u, exec .upret s = .next u ∧ u.slot.st = .waiting ∧ u.slot.pc = t.slot.pc ∧ u.core.pfe = t.core.pfe)
    ∧ ((t.core.pfe[i]).getLsbD 62 = true → field (t.wsWord 0x948) 16 5 = 0 → queueCountOk (t.wsWord 0x970) = true →
      rmReserved (rmField (t.wsWord 0x938)) = false →
      ∃ u, exec .upret s = .next u ∧ (u.core.pfe[i]).getLsbD 63 = false ∧ u.slot.pc = t.wsWord 0x908
        ∧ u.slot.par.refused = if (t.core.pfe[i]).getLsbD 61 then some (t.wsWord 0x928, t.wsWord 0x930) else none)

/-- R12, R136: wpx to an address that is no workspace, or that is bound to another slot of the core, traps with ADDR and
changes nothing first; otherwise the outgoing context is saved in its workspace, its registers, STATUS and the PC after
the wpx, and the incoming one is at the PC that its workspace holds, with the registers read from there unless a check of
R41 stops it. -/
def Obligations.WpxSwitchesWorkspaces : Prop :=
  ∀ (a : SOpd) (s t u : State) (x : Word), s.Issues (scalarChecks [a] []) [a] .drain t → t.readS a = .ok (x, u) →
    ((x.toNat % 4096 ≠ 0 ∨ x.toNat > 0x5F000) → exec (.wpx a) s = .next (t.scalarTrap { cause := 0x0500, addr := x }))
    ∧ (x.toNat % 4096 = 0 → x.toNat ≤ 0x5F000 → u.boundElsewhere x = true →
      exec (.wpx a) s = .next (t.scalarTrap { cause := 0x0500, addr := x }))
    ∧ (x.toNat % 4096 = 0 → x.toNat ≤ 0x5F000 → u.boundElsewhere x = false →
      exec (.wpx a) s = .next ((u.advance 4).switchTo x).completed ∧ ((u.advance 4).switchTo x).slot.wp = x
      ∧ (Memory.wf u.mem = true → u.slot.wp.toNat % 4096 = 0 → u.slot.wp.toNat ≤ 0x5F000 → ∀ v, v = (u.advance 4).switchTo x →
        (∀ n : Fin 24, n ≠ 0 → Memory.bytes v.mem (spKey u.coreId (u.slot.wp.toNat + 8 * n.val)) 8 = toBytes 8 (u.slot.w[n]).toNat)
        ∧ Memory.bytes v.mem (spKey u.coreId (u.slot.wp.toNat + 0x0C0)) 8 = toBytes 8 (u.slot.pc + 4).toNat
        ∧ Memory.bytes v.mem (spKey u.coreId (u.slot.wp.toNat + 0x0C8)) 8 = toBytes 8 u.slot.status.toNat
        ∧ (∀ n : Fin 16, Memory.bytes v.mem (spKey u.coreId (u.slot.wp.toNat + 0x100 + 0x80 * n.val)) 128
            = toBytes 128 (u.slot.v[n]).toNat)
        ∧ v.slot.pc = v.wsWord 0x0C0
        ∧ (v.slot.st ≠ .stopped →
          (∀ n : Fin 24, n ≠ 0 → v.slot.w[n] = v.wsWord (8 * n.val))
          ∧ (∀ n : Fin 16, v.slot.v[n] = BitVec.ofNat 1024 (ofBytes (Memory.bytes v.mem (spKey v.coreId (x.toNat + 0x100 + 0x80 * n.val)) 128)))
          ∧ v.slot.status = v.wsWord 0x0C8 &&& 0x0000007F0000DE00)))

/-- R137: ifence lets the context's fetches see what its loads see, and goes on. -/
def Sys2Proof.Claims.IfenceOrdersFetches : Prop :=
  Shape.Plain .ifence 4 .drain fun t =>
    { t with hist := t.hist.map fun r => if t.counts t.self r then r.see t.selfFetch else r }

/-! ### Control registers (R5, R21-R26, R125, R126, R138, R255-R257, R357, R358) -/

/-- R21, R125: mfcr of an assigned number reads that register; of any other number it traps with 0x0106. -/
def Sys2Proof.Claims.MfcrReadsControlRegisters : Prop :=
  ∀ (d : SOpd) (cr : BitVec 12) (s t u : State), s.Issues (scalarChecks [] [d]) [d] .drain t →
    (crAssigned cr.toNat = false → exec (.mfcr d cr) s = .next (t.scalarTrap { cause := 0x0106 }))
    ∧ (crAssigned cr.toNat = true → t.writeS d (t.readCr cr.toNat) = .ok u → exec (.mfcr d cr) s = .next (u.advance 4).completed)
    ∧ t.readCr 0 = t.slot.status &&& 0x0000007F0000DE00 ∧ t.readCr 1 = t.slot.wp
    ∧ (∀ n : Fin 16, t.readCr (0x010 + n.val) = (t.core.evc[n]).setWidth 64)
    ∧ (∀ n : Fin 4, t.readCr (0x140 + n.val) = t.core.rgn[n])
    ∧ t.readCr 0x145 = t.core.pfvec ∧ t.readCr 0x146 = t.core.aspace ∧ t.readCr 0x147 = t.core.irqwin
    ∧ (∀ n : Fin 16, t.readCr (0x150 + n.val) = t.core.pfe[n])
    ∧ (crAssigned cr.toNat = true ↔ cr.toNat ≤ 3 ∨ (0x010 ≤ cr.toNat ∧ cr.toNat ≤ 0x01F) ∨ (0x100 ≤ cr.toNat ∧ cr.toNat ≤ 0x147)
        ∨ (0x150 ≤ cr.toNat ∧ cr.toNat ≤ 0x15F))

/-- R23: a move to STATUS with a reserved RM traps with 0x0106 and changes nothing; otherwise AEN, RM and FZ take their
values, and UP, PP and every other bit stay as they were. -/
def Sys2Proof.Claims.StatusMoveKeepsUpAndPp : Prop :=
  ∀ (a : SOpd) (s t u : State) (x : Word) (i : Instr), i ∈ [Instr.mtcr 0 a, .statusWrite a] →
    s.Issues (scalarChecks [a] []) [a] .drain t → t.readS a = .ok (x, u) →
    (5 ≤ field x 10 3 → exec i s = .next (t.scalarTrap { cause := 0x0106 }))
    ∧ (field x 10 3 ≤ 4 → ∃ v : State, exec i s = .next (v.advance 4).completed
      ∧ v = { u with slot := { u.slot with status := v.slot.status } }
      ∧ v.slot.status &&& 0x0000007F00001E00 = x &&& 0x0000007F00001E00
      ∧ v.slot.status &&& 0x000000000000C000 = u.slot.status &&& 0x000000000000C000)

/-- R5, R26, R125, R126, R257, R357, R358: what a move to a control register writes, by its number; a move to a
read-only one is ignored, and one to a number that is not assigned traps with 0x0106. The moves that the table lists of
their own are these moves: every form completes with the write that its number gives. -/
def Sys2Proof.Claims.MtcrWritesControlRegisters : Prop :=
  ∀ (cr : BitVec 12) (a : SOpd) (s t u : State) (x : Word), s.Issues (scalarChecks [a] []) [a] .drain t →
    (crAssigned cr.toNat = false → exec (.mtcr cr a) s = .next (t.scalarTrap { cause := 0x0106 }))
    ∧ (t.readS a = .ok (x, u) →
      (∀ n, n ∈ [1, 2, 3, 0x140, 0x141, 0x142, 0x143, 0x144, 0x146, 0x147] →
        exec (.mtcr (BitVec.ofNat 12 n) a) s = .next (u.advance 4).completed)
      ∧ exec (.mtcr 0x145 a) s
          = .next (State.advance { u with core := { u.core with pfvec := x &&& 0x00FFFFFFFFFFFFFC } } 4).completed
      ∧ exec (.mtcr 0 a) s = exec (.statusWrite a) s
      ∧ (∀ n : Fin 16, exec (.mtcr (BitVec.ofNat 12 (0x010 + n.val)) a) s = exec (.eventCounterWrite n a 0) s)
      ∧ (∀ n : Fin 64, exec (.mtcr (BitVec.ofNat 12 (0x100 + n.val)) a) s = exec (.tileTableWrite n a) s)
      ∧ (∀ n : Fin 16, exec (.mtcr (BitVec.ofNat 12 (0x150 + n.val)) a) s = exec (.pageFaultSlotWrite n a) s)
      ∧ (∀ v, crAssigned cr.toNat = true → u.writeCr cr.toNat x 0 = .ok v → exec (.mtcr cr a) s = .next (v.advance 4).completed)
      ∧ (∀ (n : Fin 16) (late : BitVec 32), exec (.eventCounterWrite n a late) s
          = .next (State.advance { u with core := { u.core with evc := u.core.evc.set n (satAdd (x.setWidth 32) late.toNat) } } 4).completed)
      ∧ (∀ (n : Fin 64) (v : State), u.moveTte n.val x = .ok v → exec (.tileTableWrite n a) s = .next (v.advance 4).completed)
      ∧ (∀ n : Fin 16, exec (.pageFaultSlotWrite n a) s = .next (State.advance (if x.getLsbD 63
          then { u with core := { u.core with pfe := u.core.pfe.set n (setBit (u.core.pfe[n]) 63 false) } } else u) 4).completed)
      ∧ (∀ n, n ∈ [1, 2, 3, 0x140, 0x141, 0x142, 0x143, 0x144, 0x146, 0x147] → u.writeCr n x 0 = .ok u)
      ∧ u.writeCr 0x145 x 0 = .ok { u with core := { u.core with pfvec := x &&& 0x00FFFFFFFFFFFFFC } })

/-- R257: an accepted move to a tile table entry of the context's own leaves the written LEN and OFF in an EMPTY home entry
that is not forwarded, or moves ST of a home entry from EMPTY to READY or back once no command names the tile, and changes
no other entry; a window accepts no change; any other change traps with 0x0106, and an entry that another tag owns with
0x0901. -/
def Sys2Proof.Claims.TileTableMoves : Prop :=
  ∀ (s : State) (n : Fin 64) (x : Word),
    (s.ownsTile s.coreId s.slot.tag n.val = false → s.moveTte n.val x = trapAt 0x0901 0)
    ∧ (s.ownsTile s.coreId s.slot.tag n.val = true → tteWin (s.tteValue s.coreId n.val) = true →
      (tteLen x ≠ tteLen (s.tteValue s.coreId n.val) ∨ tteOff x ≠ tteOff (s.tteValue s.coreId n.val)
          ∨ tteSt x ≠ tteSt (s.tteValue s.coreId n.val) → s.moveTte n.val x = trapAt 0x0106 0)
      ∧ (tteLen x = tteLen (s.tteValue s.coreId n.val) → tteOff x = tteOff (s.tteValue s.coreId n.val) →
          tteSt x = tteSt (s.tteValue s.coreId n.val) → s.moveTte n.val x = .ok s))
    ∧ (s.ownsTile s.coreId s.slot.tag n.val = true → tteWin (s.tteValue s.coreId n.val) = false →
      ((tteLen x ≠ tteLen (s.tteValue s.coreId n.val) ∨ tteOff x ≠ tteOff (s.tteValue s.coreId n.val)) →
        ((tteSt (s.tteValue s.coreId n.val) ≠ 0 ∨ tteFo (s.tteValue s.coreId n.val) = true ∨ tteSt x ≠ 0
            ∨ tteOff x + tteLen x > 0x60000 ∨ tteLen x % 128 ≠ 0 ∨ tteOff x % 128 ≠ 0) → s.moveTte n.val x = trapAt 0x0106 0)
        ∧ (tteSt (s.tteValue s.coreId n.val) = 0 → tteFo (s.tteValue s.coreId n.val) = false → tteSt x = 0 →
            tteOff x + tteLen x ≤ 0x60000 → tteLen x % 128 = 0 → tteOff x % 128 = 0 →
            ∃ t, s.moveTte n.val x = .ok t ∧ t.mem = s.mem ∧ t.slot = s.slot
              ∧ tteLen (t.tteAt s.coreId n.val) = tteLen x ∧ tteOff (t.tteAt s.coreId n.val) = tteOff x
              ∧ tteSt (t.tteAt s.coreId n.val) = 0
              ∧ ∀ d m, (d, m) ≠ (s.coreId, n.val) → t.tteAt d m = s.tteAt d m))
      ∧ (tteLen x = tteLen (s.tteValue s.coreId n.val) → tteOff x = tteOff (s.tteValue s.coreId n.val) →
        (tteSt x = tteSt (s.tteValue s.coreId n.val) → s.moveTte n.val x = .ok s)
        ∧ (tteSt x ≠ tteSt (s.tteValue s.coreId n.val) →
          ((tteSt (s.tteValue s.coreId n.val) = 0 ∧ tteSt x = 2 ∧ tteFo (s.tteValue s.coreId n.val) = false)
              ∨ (tteSt (s.tteValue s.coreId n.val) = 2 ∧ tteSt x = 0) →
            (s.tileNamed (s.coreId, n.val) 0 = true → s.moveTte n.val x = blockOn .other)
            ∧ (s.tileNamed (s.coreId, n.val) 0 = false →
              ∃ t, s.moveTte n.val x = .ok t ∧ t.mem = s.mem ∧ t.slot = s.slot ∧ tteSt (t.tteAt s.coreId n.val) = tteSt x
                ∧ tteLen (t.tteAt s.coreId n.val) = tteLen x ∧ tteOff (t.tteAt s.coreId n.val) = tteOff x
                ∧ ∀ d m, (d, m) ≠ (s.coreId, n.val) → t.tteAt d m = s.tteAt d m))
          ∧ (¬ ((tteSt (s.tteValue s.coreId n.val) = 0 ∧ tteSt x = 2 ∧ tteFo (s.tteValue s.coreId n.val) = false)
              ∨ (tteSt (s.tteValue s.coreId n.val) = 2 ∧ tteSt x = 0)) → s.moveTte n.val x = trapAt 0x0106 0))))

/-- R138: evsnap stores the sixteen counters as one plain store of 64 bytes at an address that is a multiple of 64, and
the clearing form then leaves every counter 0; any other address traps. -/
def Sys2Proof.Claims.EvsnapStoresTheCounters : Prop :=
  ∀ (a : SOpd) (s t u v : State) (x : Word), s.Issues (scalarChecks [a] []) [a] .drain t → t.readS a = .ok (x, u) →
    (x.toNat % 64 ≠ 0 → exec (.evsnap a) s = .next (t.scalarTrap { cause := 0x0200, addr := x })
      ∧ exec (.evsnapClear a) s = .next (t.scalarTrap { cause := 0x0200, addr := x }))
    ∧ (x.toNat % 64 = 0 → u.storeVa x (u.core.evc.toList.flatMap fun c => toBytes 4 c.toNat) none = .ok v →
      exec (.evsnap a) s = .next (v.advance 4).completed
      ∧ exec (.evsnapClear a) s = .next (State.advance { v with core := { v.core with evc := Vector.replicate 16 0 } } 4).completed)

/-- R117: the base loads and stores. -/
def Obligations.LoadsAndStores : Prop :=
  Claims.LoadsReadAndExtend ∧ Claims.StoresWriteTheirWidth

/-- R117, R251: loads and stores in the local window. -/
def Obligations.WindowAccesses : Prop :=
  Claims.WindowLoadGivesScratchpadBytes ∧ Claims.StoreChangesExactlyItsBytes

/-- R14, R118, R251, R375: accesses that trap. -/
def Obligations.AccessesThatTrap : Prop :=
  Claims.MisalignedAccessTraps ∧ Claims.AddressesThatTrap

/-- R120-R124: the scoped loads and stores, and the atomics. -/
def Obligations.ScopedAndAtomicAccesses : Prop :=
  Claims.ScopedAccesses ∧ Claims.AtomicsUpdateAndReturnOld

/-- R27, R176, R177: cue and vloop. -/
def Obligations.CuesAndLoops : Prop :=
  Claims.CueLatch ∧ Claims.VloopOpensABody

/-- R42, R43, R131-R133, R137, R188: yield, wait, end and ifence; that yield gives up the issue slot is the model's choice (log 47). -/
def Obligations.ControlInstructions : Prop :=
  Claims.YieldGoesOn ∧ Claims.WaitEndsByWakeOrDeadline ∧ Claims.EndLeavesTheSlotIdle ∧ Claims.IfenceOrdersFetches

/-- R39, R354: traps that no handler takes. -/
def Obligations.TrapsThatStopTheContext : Prop :=
  Claims.TrapDuringAnUpcallStops ∧ Claims.BadUpcallVectorStops

/-- R38, R361: the return from an upcall. -/
def Obligations.UpretReturns : Prop :=
  Claims.UpretRestoresFromTheRecord ∧ Claims.UpretWaitsForTheNotice

/-- R21, R125, R138: mfcr and evsnap. -/
def Obligations.ControlRegisterReads : Prop :=
  Claims.MfcrReadsControlRegisters ∧ Claims.EvsnapStoresTheCounters

/-- R5, R23, R26, R125, R126, R257, R357, R358: mtcr. -/
def Obligations.ControlRegisterWrites : Prop :=
  Claims.StatusMoveKeepsUpAndPp ∧ Claims.MtcrWritesControlRegisters ∧ Claims.TileTableMoves

/-! ### Curtains, barriers and tiles (R237-R241, R260, R270, R284-R286) -/

/-- R270, R284, R296: curtn is a release half and an acquire half at its scope, curtn.rel the one and curtn.acq the other;
while an accepted tensor operation of the context is not performed, the two with a release half stay where they are and such
operations go on, and curtn.acq does not wait for them; none of the three that completes changes a register or a byte of
memory. -/
def Sys2Proof.Claims.CurtainsPerformTheirHalves : Prop :=
  ∀ (x : Ext) (s t : State), s.Issues {} [] .drain t →
    let asid := t.core.aspace.extractLsb' 52 12
    let rel := (t.release t.self x.scp).trigger t.self asid x.scp
    (t.elementsPending = false → exec (.curtnRel x) s = .next (rel.advance 12).completed
      ∧ exec (.curtn x) s = .next ((rel.acquireHalf x.scp).advance 12).completed)
    ∧ (t.elementsPending = true → exec (.curtnRel x) s = .next t.tensorProgress ∧ exec (.curtn x) s = .next t.tensorProgress)
    ∧ exec (.curtnAcq x) s = .next (((t.acquire t.self x.scp).trigger t.self asid x.scp).advance 12).completed
    ∧ (∀ i, i = Instr.curtnAcq x ∨ (t.elementsPending = false ∧ i ∈ [Instr.curtn x, .curtnRel x]) → ∃ u, exec i s = .next u ∧ u.mem = t.mem ∧ u.slot.w = t.slot.w
      ∧ u.slot.v = t.slot.v ∧ u.slot.status = t.slot.status ∧ u.slot.q0 = t.slot.q0 ∧ u.slot.q1 = t.slot.q1 ∧ u.slot.q2 = t.slot.q2
      ∧ u.slot.q3 = t.slot.q3 ∧ u.core = t.core ∧ u.slot.pc = t.slot.pc + 12)

/-- R285, R286: succgo adds 1 to its kernel's count, which saturates; predwait goes on once its predecessor has ended,
with 1 where it ended by tolerance or quiescence and the own kernel runs and 0 where not, and 2 without a predecessor; a 1
makes every write of the predecessor whose home lies in the scope's domain count for the context. -/
def Sys2Proof.Claims.SuccessionOfKernels : Prop :=
  ∀ (x : Ext) (s t : State),
    (s.Issues {} [] .drain t → ∃ u, exec (.succgo x) s = .next u ∧ u.slot.pc = t.slot.pc + 12 ∧ u.slot.w = t.slot.w ∧ u.mem = t.mem
      ∧ ∀ k, t.kernelAt t.slot.par.kid = some k → k.kid = t.slot.par.kid →
        ∃ r, u.kernelAt t.slot.par.kid = some r ∧ r.succgo = min (k.succgo + 1) (2 ^ 32 - 1))
    ∧ (s.Issues (tensChecks [] (some x.od)) (scalarsOf [x.od]) .drain t →
      (∀ r u, t.predOutcome = some r → (t.acquirePred x.scp r).writeS (opdOf x.od) r = .ok u →
        exec (.predwait x) s = .next (u.yieldPoint.advance 12).completed)
      ∧ (∀ k, t.kernel = some k → k.pred = none → t.predOutcome = some 2)
      ∧ (∀ k p q e, t.kernel = some k → k.pred = some p → t.kernelAt p = some q → q.ended = some e →
        t.predOutcome = some (if (e = 1 ∨ e = 2) ∧ k.runs = true then 1 else 0))
      ∧ (∀ k p r, t.kernel = some k → k.pred = some p → r ∈ (t.acquirePred x.scp 1).hist → r.by_.kid = p →
        homeInDomain r.addr t.self x.scp = true → (t.acquirePred x.scp 1).counts t.self r = true))

/-- R237-R239: a bar.arr that the open generation takes gives that generation's number and counts as its arrival; a
bar.wait for a generation that has completed gives 1; a bar.add changes the pending count. Identifiers from 64 on and
member counts that are 0 trap with 0x0802, and a pending count that would fall below 0 with 0x0804. -/
def Obligations.BarriersCountArrivals : Prop :=
  ∀ (x : Ext) (s t : State),
    (∀ (u v w : State) (a m : Word) (k : Kernel), x.imm.getLsbD 0 = false →
      s.Issues (specChecks [x.oa, x.ob] [x.od]) (scalarsOf [x.od, x.oa, x.ob]) .drain t →
      t.twiceCheck (linksOf (scalarsOf [x.oa, x.ob])) = .ok () → t.readS (opdOf x.oa) = .ok (a, u) → u.readS (opdOf x.ob) = .ok (m, v) →
      v.slot.par.request = .none →
      ((a.toNat ≥ 64 ∨ m.toNat = 0 ∨ m.toNat > 2 ^ 24) → exec (.barArr x) s = .next (t.scalarTrap { cause := 0x0802 }))
      ∧ (a.toNat < 64 → 1 ≤ m.toNat → m.toNat ≤ 2 ^ 24 → v.linksOk (linksOf (scalarsOf [x.od])) = .ok () → x.rel = false →
        v.kernel = some k →
        (k.barrier a.toNat).decide (v.arrival a.toNat m.toNat none (x.imm.getLsbD 1)) = .open_ →
        v.writeS (opdOf x.od) ((k.barrier a.toNat).done.setWidth 64) = .ok w →
        exec (.barArr x) s = .next ((w.join k a.toNat (v.arrival a.toNat m.toNat none (x.imm.getLsbD 1)) false).advance 12).completed))
    ∧ (∀ (u v w : State) (a g : Word) (k : Kernel),
      s.Issues (specChecks [x.oa, x.ob] [x.od]) (scalarsOf [x.od, x.oa, x.ob]) .drain t →
      t.twiceCheck (linksOf (scalarsOf [x.oa, x.ob])) = .ok () → t.readS (opdOf x.oa) = .ok (a, u) → u.readS (opdOf x.ob) = .ok (g, v) →
      a.toNat < 64 → v.kernel = some k → x.acq = false →
      1 ≤ ((k.barrier a.toNat).done - g.setWidth 32).toNat → ((k.barrier a.toNat).done - g.setWidth 32).toNat ≤ 2 ^ 31 →
      (v.passes v.self a.toNat (g.toNat % 2 ^ 32)).writeS (opdOf x.od) 1 = .ok w → exec (.barWait x) s = .next (w.yieldPoint.advance 12).completed)
    ∧ (∀ (u v : State) (a d : Word) (k : Kernel),
      s.Issues (specChecks [x.oa, x.ob] []) (scalarsOf [x.oa, x.ob]) .drain t →
      t.twiceCheck (linksOf (scalarsOf [x.oa, x.ob])) = .ok () → t.readS (opdOf x.oa) = .ok (a, u) → u.readS (opdOf x.ob) = .ok (d, v) →
      a.toNat < 64 → x.rel = false → v.kernel = some k →
      (0 ≤ ((k.barrier a.toNat).pending : Int) + d.toInt → ((k.barrier a.toNat).pending : Int) + d.toInt ≤ 2 ^ 56 - 1 →
        exec (.barAdd x) s = .next (State.advance ((v.setKernel (k.setBarrier a.toNat { k.barrier a.toNat with
          pending := (((k.barrier a.toNat).pending : Int) + d.toInt).toNat })).treeActs k.kid a.toNat) 12).completed)
      ∧ (((k.barrier a.toNat).pending : Int) + d.toInt < 0 →
        exec (.barAdd x) s = .next ((v.unread t).trapNow { cause := 0x0804 }).completed))

/-- R260: giving a READY tile to another core of the cluster: the home entry stays where it is and is held by the target
entry, which is a window onto it; giving it to the own core changes nothing. -/
def Sys2Proof.Claims.OwnGiveHandsTheTileOver : Prop :=
  ∀ (x : Ext) (s t u v : State) (tv mv : Word) (n c : Nat) (h : Word), x.rel = false → tileOf x.od = some n →
    s.Issues (specChecks [x.oa, x.ob] []) (scalarsOf [x.oa, x.ob]) .drain t →
    t.twiceCheck (linksOf (scalarsOf [x.oa, x.ob])) = .ok () → t.readS (opdOf x.oa) = .ok (tv, u) → u.readS (opdOf x.ob) = .ok (mv, v) →
    (v.kernel.bind fun k => k.coreOf tv.toNat) = some c → mv.toNat < 64 → v.ownsTile v.coreId v.slot.tag n = true →
    clusterId c = clusterId v.coreId → v.homeEntry v.coreId n = h → (tteSt h = 2 ∨ (tteSt h = 0 ∧ tteFo h = false)) →
    v.tileNamed (v.tteHome v.coreId n) 0 = false →
    (c = v.coreId → exec (.ownGive x) s = .next (v.advance 12).completed)
    ∧ (c ≠ v.coreId → v.canTake (v.tteHome v.coreId n) c mv.toNat = true →
      exec (.ownGive x) s = .next ((v.give n (v.tteHome v.coreId n) c mv.toNat).advance 12).completed)

/-! ### Messages and the parallel layer (R226-R246) -/

/-- R229-R231: send, sendh and gainadd put their message, or their gain update, in flight to the core that the index or
the owner of the address gives; an index outside the grid traps with 0x0800. -/
def Sys2Proof.Claims.SendsPutTrafficInFlight : Prop :=
  ∀ (x : Ext) (s t : State),
    (∀ (i : Instr) (owner : Bool) (u v w y : State) (a h p : Word) (c : Nat) (ws : List Word),
      (i, owner) ∈ [(Instr.send x, false), (.sendh x, true)] →
      s.Issues (specChecks ([x.oa, x.ob] ++ if x.imm.toNat % 8 = 0 then [] else [x.oc]) [])
        (scalarsOf ([x.oa, x.ob] ++ if x.imm.toNat % 8 = 0 then [] else [x.oc])) .drain t →
      t.twiceCheck (linksOf (scalarsOf ([x.oa, x.ob] ++ if x.imm.toNat % 8 = 0 then [] else [x.oc]))) = .ok () →
      t.readS (opdOf x.oa) = .ok (a, u) → u.readS (opdOf x.ob) = .ok (h, v) →
      (if x.imm.toNat % 8 = 0 then .ok (0, v) else v.readS (opdOf x.oc)) = .ok (p, w) →
      (if owner then w.targetOwner a else w.targetIndex a) = .ok c → p.toNat % 8 = 0 →
      w.loadWords p (x.imm.toNat % 8) = .ok (ws, y) → y.hasRoomAt c = true → x.rel = false →
      exec i s = .next (State.advance { y with flight := y.flight ++ [.message y.slot.par.kid y.coreId y.slot.par.ident c
        { header := setField h 16 10 y.slot.tag.toNat, p := payload ws }] } 12).completed)
    ∧ (∀ (u v w : State) (a k d : Word) (c : Nat),
      s.Issues (specChecks [x.oa, x.ob, x.oc] []) (scalarsOf [x.oa, x.ob, x.oc]) .drain t →
      t.twiceCheck (linksOf (scalarsOf [x.oa, x.ob, x.oc])) = .ok () →
      t.readS (opdOf x.oa) = .ok (a, u) → u.readS (opdOf x.ob) = .ok (k, v) → v.readS (opdOf x.oc) = .ok (d, w) →
      (if x.imm.getLsbD 0 then w.targetOwner a else w.targetIndex a) = .ok c →
      (w.merges c (k.toNat % 2 ^ 16) = true ∨ w.kernel.bind (·.dflt) = none ∨ w.hasRoomAt c = true) → x.rel = false →
      exec (.gainadd x) s = .next (State.advance { w with flight := w.flight ++ [.gain w.slot.par.kid w.coreId w.slot.par.ident c
        (k.setWidth 16) (d.setWidth 32)] } 12).completed)
    ∧ (∀ (a : Word) (k : Kernel), t.kernel = some k → a.toNat ≥ k.rows * k.cols → t.targetIndex a = trapOf 0x0800)

/-- R199, R232: resadd adds its FP32 value, or the active lanes of its vector in lane order, into its kernel's residual
pair on the core, one twosum step each, and changes no register. -/
def Sys2Proof.Claims.ResaddAccumulates : Prop :=
  ∀ (x : Ext) (s t : State),
    (∀ (u : State) (a : Word), x.oa.isVector = false → x.me = false →
      s.Issues { operand := !srcSpec x.oa, queue := specQueue x.oa } (scalarsOf [x.oa]) .drain t →
      t.readS (opdOf x.oa) = .ok (a, u) → aen u.slot.status = 0 →
      exec (.resadd x) s = .next ((u.addResidual [(a.setWidth 32).toNat]).1.advance 12).completed)
    ∧ (∀ (u : State) (v : VReg), x.oa.isVector = true → x.me = false →
      s.Issues { operand := !vsrcSpec x.oa, queue := specQueue x.oa } (scalarsOf [x.oa]) .drain t →
      t.readV x.oa 32 = .ok (v, u) → aen u.slot.status = 0 →
      exec (.resadd x) s = .next ((u.addResidual ((List.range 32).map fun i => (v.extractLsb' (32 * i) 32).toNat)).1.advance 12).completed)
    ∧ ∀ d, (t.addResidual [d]).1.core.of t.slot.par.kid =
      { t.core.of t.slot.par.kid with s := (residualStep ((t.core.of t.slot.par.kid).s, (t.core.of t.slot.par.kid).c) d).1.1
                                      c := (residualStep ((t.core.of t.slot.par.kid).s, (t.core.of t.slot.par.kid).c) d).1.2 }

/-- R233: spawn puts its offer in flight and waits at its instruction; once the answer is there it completes with 1 where
a slot took the offer and 0 where none did. A link that R212 refuses makes it trap before the offer goes out. -/
def Sys2Proof.Claims.SpawnOffersAndAnswers : Prop :=
  ∀ (x : Ext) (s t u v w : State) (a pc p : Word),
    s.Issues (specChecks [x.oa, x.ob, x.oc] [x.od]) (scalarsOf [x.od, x.oa, x.ob, x.oc]) .drain t →
    t.twiceCheck (linksOf (scalarsOf [x.oa, x.ob, x.oc])) = .ok () →
    t.readS (opdOf x.oa) = .ok (a, u) → u.readS (opdOf x.ob) = .ok (pc, v) → v.readS (opdOf x.oc) = .ok (p, w) →
    (∀ (took : Bool) (y : State), w.slot.par.request = .spawn (some took) → w.writeS (opdOf x.od) (if took then 1 else 0) = .ok y →
      exec (.spawn x) s = .next (y.advance 12).completed)
    ∧ (∀ (c : Nat) (ws : List Word) (y : State) (k : Trap), t.linksOk (linksOf (scalarsOf [x.od, x.oa, x.ob, x.oc])) = .error (.trap k) →
      w.slot.par.request = .none → w.targetIndex a = .ok c → pc.toNat % 4 = 0 →
      p.toNat % 8 = 0 → w.loadWords p 4 = .ok (ws, y) → x.rel = false → exec (.spawn x) s = .next (t.scalarTrap k))
    ∧ (∀ (c : Nat) (ws : List Word) (y : State), t.linksOk (linksOf (scalarsOf [x.od, x.oa, x.ob, x.oc])) = .ok () →
      w.slot.par.request = .none → w.targetIndex a = .ok c → pc.toNat % 4 = 0 →
      p.toNat % 8 = 0 → w.loadWords p 4 = .ok (ws, y) → x.rel = false →
      ∃ r, exec (.spawn x) s = .next r ∧ r.slot.pc = y.slot.pc ∧ r.slot.par.request = .spawn none
        ∧ r.flight = y.flight ++ [.offer y.slot.par.kid y.coreId y.slot.par.ident c pc ws y.slot.par.header y.slot.par.level])

/-- R207, R234-R236: kmap sets a key map from a valid descriptor; sendk routes a key's update by it, which counts 16 bytes
at a barrier it attaches; defh sets or clears the default handler. -/
def Sys2Proof.Claims.KeyMapsRouteUpdates : Prop :=
  ∀ (x : Ext) (s t : State),
    (∀ (u v : State) (a : Word) (ws : List Word) (k : Kernel) (m : KeyMap),
      s.Issues (specChecks [x.oa] []) (scalarsOf [x.oa]) .drain t → t.readS (opdOf x.oa) = .ok (a, u) → a.toNat % 32 = 0 →
      u.loadWords a 4 = .ok (ws, v) → v.kernel = some k → keyMapOf k ws = some m →
      exec (.kmap x) s = .next ((v.setKernel { k with kmaps := assocSet (x.imm.toNat % 8) m k.kmaps }).advance 12).completed)
    ∧ (∀ (u v : State) (key value : Word) (k : Kernel) (m : KeyMap) (core bin : Nat), x.imm.getLsbD 4 = false → x.rel = false →
      s.Issues (specChecks [x.oa, x.ob] []) (scalarsOf [x.oa, x.ob]) .drain t →
      t.twiceCheck (linksOf (scalarsOf [x.oa, x.ob])) = .ok () →
      t.readS (opdOf x.oa) = .ok (key, u) → u.readS (opdOf x.ob) = .ok (value, v) → v.kernel = some k →
      (k.kmaps.find? fun q => q.1 == x.imm.toNat % 8).map (·.2) = some m → m.route k key.toNat = some (core, bin) →
      exec (.sendk x) s = .next (State.advance { v with flight := v.flight ++ [.keyUpdate k.kid v.coreId core bin m.boff m.op value none] }
        12).completed)
    ∧ (s.Issues {} [] .drain t →
      exec (.defh x) s = .next (State.advance (t.mapKernel t.slot.par.kid fun (k : Kernel) =>
        { k with dflt := if x.imm.toNat % 128 = 0x40 then none else some (x.imm.toNat % 128) }) 12).completed)

/-- R244, R245: gang forms once every core of the block gives a member, and otherwise waits; a block outside the band,
a context that is in a gang, or one that waits with another shape in a block that overlaps this one makes it trap with 0x0805,
once it is not waiting with the shape already; ungang marks the gang to disband. Which of several waiting contexts of a core
becomes the member is the model's choice (log 41, DESIGN CHOICE). -/
def Sys2Proof.Claims.GangsFormAndDisband : Prop :=
  ∀ (x : Ext) (s t : State) (b : Band) (k : Kernel), s.Issues {} [] .drain t → t.band = some b → t.kernel = some k →
    let block := gangBlock t.coreId (x.imm.toNat % 4)
    let members := block.filterMap (t.gangMember (x.imm.toNat % 4))
    (t.gangWaits (x.imm.toNat % 4) = false → (block.all (bandHolds b k.cols) = false ∨ (t.gangOf t.coreId t.slotId).isSome = true
        ∨ t.gangClash (x.imm.toNat % 4) = true) → exec (.gang x) s = .next (t.scalarTrap { cause := 0x0805 }))
    ∧ ((t.gangWaits (x.imm.toNat % 4) = true ∨ (block.all (bandHolds b k.cols) = true ∧ t.gangOf t.coreId t.slotId = none
        ∧ t.gangClash (x.imm.toNat % 4) = false)) →
      (members.length = block.length → exec (.gang x) s = .next (t.formGang members).completed)
      ∧ (members.length ≠ block.length → ∃ u, exec (.gang x) s = .next u ∧ u.slot.st = .waiting ∧ u.slot.pc = t.slot.pc
        ∧ u.slot.par.gangWish = some (x.imm.toNat % 4)))
    ∧ exec (.ungang x) s = .next ((t.dissolveGang t.coreId t.slotId).advance 12).completed

/-- R240, R242, R243: myid reads the identity that it selects; trc.add adds to the context's contribution for a barrier;
trc.get reads a barrier's last result, the last round's total, or the number of rounds. -/
def Sys2Proof.Claims.IdentityAndTree : Prop :=
  ∀ (x : Ext) (s t u : State),
    (s.Issues (specChecks [] [x.od]) (scalarsOf [x.od]) .free t → t.writeS (opdOf x.od) (t.identity (x.imm.toNat % 8)) = .ok u →
      exec (.myid x) s = .next (u.advance 12).completed)
    ∧ t.identity 0 = t.slot.vcore.setWidth 64 ∧ t.identity 4 = t.slot.par.header
    ∧ (∀ (v w : State) (a y : Word), s.Issues (specChecks [x.oa, x.ob] []) (scalarsOf [x.oa, x.ob]) .drain t →
      t.twiceCheck (linksOf (scalarsOf [x.oa, x.ob])) = .ok () → t.readS (opdOf x.oa) = .ok (a, v) → v.readS (opdOf x.ob) = .ok (y, w) →
      a.toNat < 64 → w.slot.contribution a.toNat = none → x.imm.toNat % 4 = 0 →
      exec (.trcAdd x) s = .next (State.advance (w.setPar { w.slot.par with 
        contribs := { barrier := a.toNat, op := .add, value := y } :: w.slot.par.contribs.filter (fun d => d.barrier != a.toNat) }) 12).completed)
    ∧ (∀ (v w : State) (a : Word) (k : Kernel), x.imm.toNat % 4 = 0 →
      s.Issues (specChecks [x.oa] [x.od]) (scalarsOf [x.od, x.oa]) .free t → t.readS (opdOf x.oa) = .ok (a, v) → a.toNat < 64 →
      v.kernel = some k → v.writeS (opdOf x.od) (k.barrier a.toNat).last = .ok w → exec (.trcGet x) s = .next (w.advance 12).completed)
    ∧ (∀ (v : State) (k : Kernel), x.imm.toNat % 4 = 1 → s.Issues (specChecks [] [x.od]) (scalarsOf [x.od]) .free t →
      t.kernel = some k → t.writeS (opdOf x.od) (k.lo ++ k.hi) = .ok v → exec (.trcGet x) s = .next (v.advance 12).completed)

/-- R212, R246: lclaim takes the core's link claim where it is free or held by the slot and gives 1, and otherwise gives
0; with a destination that is a link it traps with 0x0806 off the rectangle, and with 0x0807 where the slot does not hold the
claim before it; lfree gives it up where the slot holds it; lpoll reads the link state. -/
def Sys2Proof.Claims.LinkClaims : Prop :=
  ∀ (d : SOpd) (s t : State),
    (∀ u, s.Issues (scalarChecks [] [d]) [d] .drain t → t.linksOk (linksOf [d]) = .ok () →
      (t.core.claim = none ∨ t.core.claim = some t.slotId) →
      State.writeS { t with core := { t.core with claim := some t.slotId } } d 1 = .ok u →
      exec (.lclaim d) s = .next (u.advance 4).completed)
    ∧ (∀ u j, s.Issues (scalarChecks [] [d]) [d] .drain t → t.core.claim = some j → j ≠ t.slotId → t.writeS d 0 = .ok u →
      (∀ g, d ≠ .link g) → exec (.lclaim d) s = .next (u.advance 4).completed)
    ∧ (∀ g, s.Issues (scalarChecks [] [d]) [d] .drain t → d = .link g →
      (t.linkNeighbour g = none → exec (.lclaim d) s = .next (t.scalarTrap { cause := 0x0806 }))
      ∧ (t.linkNeighbour g ≠ none → t.core.claim ≠ some t.slotId → exec (.lclaim d) s = .next (t.scalarTrap { cause := 0x0807 })))
    ∧ (s.Issues {} [] .drain t → exec .lfree s
      = .next (State.advance { t with core := { t.core with claim := if t.core.claim = some t.slotId then none else t.core.claim } } 4).completed)
    ∧ (∀ u, s.Issues (scalarChecks [] [d]) [d] .free t → t.writeS d t.linkState = .ok u →
      exec (.lpoll d) s = .next (u.advance 4).completed)

/-! ### The host instructions (R390, R402-R409) -/

/-- R404, R405: rdtime reads the time base; alarm sets the slot's alarm, which with a zero deadline clears it; a header
whose handler is zero traps with 0x0D00. -/
def Sys2Proof.Claims.TimeAndAlarms : Prop :=
  (∀ (d : SOpd) (s t u : State), s.Issues (scalarChecks [] [d]) [d] .free t → t.writeS d (BitVec.ofNat 64 t.timeBase) = .ok u →
    exec (.rdtime d) s = .next (u.advance 4).completed)
  ∧ (∀ (a b : SOpd) (s t u v : State) (d h : Word), s.Issues (scalarChecks [a, b] []) [a, b] .drain t →
    t.twiceCheck (linksOf [a, b]) = .ok () → t.readS a = .ok (d, u) → u.readS b = .ok (h, v) →
    (h ≠ 0 → v.handler (hdrHid h) = 0 → exec (.alarm a b) s = .next (t.scalarTrap { cause := 0x0D00 }))
    ∧ (h = 0 → d = 0 → exec (.alarm a b) s = .next (State.advance (v.setPar { v.slot.par with alarm := none }) 4).completed)
    ∧ ((h = 0 ∨ v.handler (hdrHid h) ≠ 0) → v.timeBase < d.toNat →
      exec (.alarm a b) s = .next (State.advance (v.setPar { v.slot.par with alarm := some { deadline := d, header := h } }) 4).completed)
    ∧ (h = 0 → d ≠ 0 → d.toNat ≤ v.timeBase →
      exec (.alarm a b) s = .next (State.advance (v.setPar { v.slot.par with alarm := none, wake := true }) 4).completed))

/-- R409: sig.irq raises an identity that IRQWIN grants at a hart below 8, after a release half at sys, where a route reaches the
control die (R395); any other traps with 0x0D00. -/
def Sys2Proof.Claims.SigIrqRaisesGrantedIdentities : Prop :=
  ∀ (a b : SOpd) (s t u v : State) (i h : Word), s.Issues (scalarChecks [a, b] []) [a, b] .drain t →
    t.twiceCheck (linksOf [a, b]) = .ok () → t.readS a = .ok (i, u) → u.readS b = .ok (h, v) →
    ((h.toNat ≥ 8 ∨ i.toNat < field v.core.irqwin 0 11 ∨ field v.core.irqwin 0 11 + field v.core.irqwin 16 11 ≤ i.toNat) →
      exec (.sigIrq a b) s = .next (t.scalarTrap { cause := 0x0D00 }))
    ∧ (h.toNat < 8 → field v.core.irqwin 0 11 ≤ i.toNat → i.toNat < field v.core.irqwin 0 11 + field v.core.irqwin 16 11 →
      v.toControl = .ok () → ∀ w, v.releaseHalf .sys = .ok w → exec (.sigIrq a b) s = .next ((w.raise (pkgOf w.coreId) h.toNat i.toNat).advance 4).completed)

/-- R407, R408: sys at an address that is not a multiple of 64 traps with 0x0200, and with SYSQ.EN = 0 with 0x0D00; where
the queue has room, the page of its entry is not moving, routes reach it and the control die that SYSQIRQ signals, and no error stops
the write, it posts its request as the entry at SYSQTAIL, where the page at SYSQ.BASE now lies, with the context's identity, a token that no unanswered
request has, the time and the address, and waits; once the reply is there sys completes with its value. -/
def Sys2Proof.Claims.SystemCalls : Prop :=
  ∀ (d a : SOpd) (s t : State), s.Issues (scalarChecks [a] [d]) [d, a] .drain t →
    (∀ (u : State) (x : Word), t.slot.par.request = .none → t.readS a = .ok (x, u) →
      (x.toNat % 64 ≠ 0 → exec (.sys d a) s = .next (t.scalarTrap { cause := 0x0200, addr := x }))
      ∧ (x.toNat % 64 = 0 → (t.ctlAt (pkgOf t.coreId)).sysqOn = false → exec (.sys d a) s = .next (t.scalarTrap { cause := 0x0D00 })))
    ∧ (∀ (u v w : State) (x : Word) (ws : List Word), t.slot.par.request = .none → t.readS a = .ok (x, u) → x.toNat % 64 = 0 →
      (t.ctlAt (pkgOf t.coreId)).sysqOn = true → u.loadWords x 8 = .ok (ws, v) → v.releaseHalf .sys = .ok w →
      t.linksOk (linksOf [d, a]) = .ok () → Memory.wf w.mem = true → ∀ c key, c = w.ctlAt (pkgOf w.coreId) → c.sysqReady = true →
      key = w.forwarded (field c.sysq 12 40 * 4096 + c.sysqTail.toNat % c.sysqSlots * 128) →
      (∀ y, y = w.unread t → y.homeQueues key (y.asRequest false) = false ∧ y.sysRoutes key = .ok ()
        ∧ ∃ z, y.waits.checkWrite y.waits.self key 128 = .ok z) →
      ∃ r token, exec (.sys d a) s = .next r ∧ r.slot.st = .waiting ∧ r.slot.pc = t.slot.pc ∧ r.slot.w = t.slot.w
        ∧ r.slot.par.request = .sys token none ∧ c.tokens.contains token = false
        ∧ (r.ctlAt (pkgOf w.coreId)).tokens = token :: c.tokens ∧ (r.ctlAt (pkgOf w.coreId)).sysqTail = c.sysqTail + 1
        ∧ Memory.bytes r.mem key 0x80
          = bytesOfWords (ws ++ [w.sysIdentity, token, BitVec.ofNat 64 w.timeBase, x, 0, 0, 0, c.sysqTail])
        ∧ ∀ k, k < key ∨ key + 0x80 ≤ k → Memory.get r.mem k = Memory.get w.mem k)
    ∧ (∀ k, t.linksOk (linksOf [d, a]) = .ok () → t.slot.par.request = .sys k none → exec (.sys d a) s = .next t.waits)
    ∧ (∀ (u v : State) (x k r : Word), t.slot.par.request = .sys k (some r) → t.readS a = .ok (x, u) →
      (u.acquireHalf .sys).writeS d r = .ok v → exec (.sys d a) s = .next (v.yieldPoint.advance 4).completed)

/-- R390: pfetch loads a readable translation into the TLBs and does nothing else, and never traps on its address;
pfetch.mv also asks for the page to move to the core's die, where the translation is there and leads to memory. -/
def Sys2Proof.Claims.PrefetchNeverTraps : Prop :=
  ∀ (a : SOpd) (s t u : State) (x : Word), s.Issues (scalarChecks [a] []) [a] .free t → t.readS a = .ok (x, u) →
    (∀ r, u.prefetched x = .ok r → exec (.pfetch a) s = .next ((u.prefetch false x r).advance 4).completed
      ∧ exec (.pfetchMv a) s = .next ((u.prefetch true x r).advance 4).completed
      ∧ (r = none → u.prefetch false x r = u ∧ u.prefetch true x r = u)
      ∧ (∀ l v, r = some (l, v) → u.prefetch false x r = v
        ∧ (l.frame / 2 ^ 49 % 2 = 0 → u.prefetch true x r = v.requestMove (v.entryAddr v.coreId x.toNat) l.frame l.small (dieOf v.coreId))
        ∧ (l.frame / 2 ^ 49 % 2 ≠ 0 → u.prefetch true x r = v))
      ∧ ∀ m, (u.prefetch m x r).slot = u.slot ∧ (u.prefetch m x r).mem = u.mem)
    ∧ (x.toNat ≥ 0xFFFFFFFFF00000 → u.prefetched x = .ok none)
    ∧ ∀ k, u.prefetched x ≠ .error (.trap k)

/-- R270, R284-R286: the curtains, succgo and predwait. -/
def Obligations.CurtainsAndSuccession : Prop :=
  Claims.CurtainsPerformTheirHalves ∧ Claims.SuccessionOfKernels

/-- R212, R246, R260: own.give and the link claim. -/
def Obligations.TilesAndLinksHandedOver : Prop :=
  Claims.OwnGiveHandsTheTileOver ∧ Claims.LinkClaims

/-- R207, R229-R231, R234-R236: what send, sendh, gainadd, kmap, sendk and defh do. -/
def Obligations.MessagesAndUpdatesSent : Prop :=
  Claims.SendsPutTrafficInFlight ∧ Claims.KeyMapsRouteUpdates

/-- R199, R232, R240, R242, R243: resadd, myid and the tree. -/
def Obligations.ResidualsIdentityAndTree : Prop :=
  Claims.ResaddAccumulates ∧ Claims.IdentityAndTree

/-- R233, R244, R245: spawn, gang and ungang. -/
def Obligations.SpawnsAndGangs : Prop :=
  Claims.SpawnOffersAndAnswers ∧ Claims.GangsFormAndDisband

/-- R390, R404, R405, R407, R409: the HOST and PAGE instructions. -/
def Obligations.HostAndPageInstructions : Prop :=
  Claims.TimeAndAlarms ∧ Claims.SigIrqRaisesGrantedIdentities ∧ Claims.SystemCalls ∧ Claims.PrefetchNeverTraps

/-! ### Vector instructions (R28, R30, R140-R175) -/

/-- R140-R147, R154, R155: the floating-point, packed and reduction instructions, in every form:
once the checks pass they are in the sequencer, and with nothing else there their instance runs. -/
def Sys2Proof.Claims.VectorFloatForms : Prop :=
  ∀ (ft : FType) (d : VOpd) (a : VOpd) (b : VOpd) (x : Ext) (g : BitVec 5) (et : F8Type),
    Shape.Vector (.vadd ft d a b) 4 (.add ft) (baseExt (.v d) (.v a) (.v b)) true none
    ∧ Shape.Vector (.vaddExt ft x) 12 (.add ft) x false none
    ∧ Shape.Vector (.vsub ft d a b) 4 (.sub ft) (baseExt (.v d) (.v a) (.v b)) true none
    ∧ Shape.Vector (.vsubExt ft x) 12 (.sub ft) x false none
    ∧ Shape.Vector (.vmul ft d a b) 4 (.mul ft) (baseExt (.v d) (.v a) (.v b)) true none
    ∧ Shape.Vector (.vmulExt ft x) 12 (.mul ft) x false none
    ∧ Shape.Vector (.vfma ft d a b) 4 (.fma ft) (baseExt (.v d) (.v a) (.v b)) true none
    ∧ Shape.Vector (.vfmaExt ft x) 12 (.fma ft) x false none
    ∧ Shape.Vector (.vfms ft d a b) 4 (.fms ft) (baseExt (.v d) (.v a) (.v b)) true none
    ∧ Shape.Vector (.vfmsExt ft x) 12 (.fms ft) x false none
    ∧ Shape.Vector (.vmin ft d a b) 4 (.min ft) (baseExt (.v d) (.v a) (.v b)) true none
    ∧ Shape.Vector (.vminExt ft x) 12 (.min ft) x false none
    ∧ Shape.Vector (.vmax ft d a b) 4 (.max ft) (baseExt (.v d) (.v a) (.v b)) true none
    ∧ Shape.Vector (.vmaxExt ft x) 12 (.max ft) x false none
    ∧ Shape.Vector (.vabs ft d a) 4 (.abs ft) (baseExt (.v d) (.v a) Spec.zero) true none
    ∧ Shape.Vector (.vabsExt ft x) 12 (.abs ft) x false none
    ∧ Shape.Vector (.vneg ft d a) 4 (.neg ft) (baseExt (.v d) (.v a) Spec.zero) true none
    ∧ Shape.Vector (.vnegExt ft x) 12 (.neg ft) x false none
    ∧ Shape.Vector (.vsum ft d a) 4 (.sum ft) (baseExt (.v d) (.v a) Spec.zero) true none
    ∧ Shape.Vector (.vsumExt ft x) 12 (.sum ft) x false none
    ∧ Shape.Vector (.vrmax ft d a) 4 (.rmax ft) (baseExt (.v d) (.v a) Spec.zero) true none
    ∧ Shape.Vector (.vrmaxExt ft x) 12 (.rmax ft) x false none
    ∧ Shape.Vector (.vrmin ft d a) 4 (.rmin ft) (baseExt (.v d) (.v a) Spec.zero) true none
    ∧ Shape.Vector (.vrminExt ft x) 12 (.rmin ft) x false none
    ∧ Shape.Vector (.vscan ft d a) 4 (.scan ft) (baseExt (.v d) (.v a) Spec.zero) true none
    ∧ Shape.Vector (.vscanExt ft x) 12 (.scan ft) x false none
    ∧ Shape.Vector (.vgmax ft d a g) 4 (.gmax ft) (baseExt (.v d) (.v a) (.s (SOpd.ofBits g))) true none
    ∧ Shape.Vector (.vgmaxExt ft x) 12 (.gmax ft) x false none
    ∧ Shape.Vector (.vpadd et d a b) 4 (.padd et) (baseExt (.v d) (.v a) (.v b)) true none
    ∧ Shape.Vector (.vpaddExt et x) 12 (.padd et) x false none
    ∧ Shape.Vector (.vpsub et d a b) 4 (.psub et) (baseExt (.v d) (.v a) (.v b)) true none
    ∧ Shape.Vector (.vpsubExt et x) 12 (.psub et) x false none
    ∧ Shape.Vector (.vpmul et d a b) 4 (.pmul et) (baseExt (.v d) (.v a) (.v b)) true none
    ∧ Shape.Vector (.vpmulExt et x) 12 (.pmul et) x false none
    ∧ Shape.Vector (.vpfma et d a b) 4 (.pfma et) (baseExt (.v d) (.v a) (.v b)) true none
    ∧ Shape.Vector (.vpfmaExt et x) 12 (.pfma et) x false none

/-- R148-R153, R160-R165: the pair, compensated, conversion and approximation instructions, in every form:
once the checks pass they are in the sequencer, and with nothing else there their instance runs. -/
def Sys2Proof.Claims.VectorPairForms : Prop :=
  ∀ (d : VOpd) (a : VOpd) (b : VOpd) (x : Ext),
    Shape.Vector (.vaddX d a b) 4 .addX (baseExt (.v d) (.v a) (.v b)) true none
    ∧ Shape.Vector (.vaddXExt x) 12 .addX x false none
    ∧ Shape.Vector (.vsubX d a b) 4 .subX (baseExt (.v d) (.v a) (.v b)) true none
    ∧ Shape.Vector (.vsubXExt x) 12 .subX x false none
    ∧ Shape.Vector (.vmulX d a b) 4 .mulX (baseExt (.v d) (.v a) (.v b)) true none
    ∧ Shape.Vector (.vmulXExt x) 12 .mulX x false none
    ∧ Shape.Vector (.vdwadd d a b) 4 .dwadd (baseExt (.v d) (.v a) (.v b)) true none
    ∧ Shape.Vector (.vdwaddExt x) 12 .dwadd x false none
    ∧ Shape.Vector (.vdwmul d a b) 4 .dwmul (baseExt (.v d) (.v a) (.v b)) true none
    ∧ Shape.Vector (.vdwmulExt x) 12 .dwmul x false none
    ∧ Shape.Vector (.vdwfma d a b) 4 .dwfma (baseExt (.v d) (.v a) (.v b)) true none
    ∧ Shape.Vector (.vdwfmaExt x) 12 .dwfma x false none
    ∧ Shape.Vector (.vdwround d a) 4 .dwround (baseExt (.v d) (.v a) Spec.zero) true none
    ∧ Shape.Vector (.vdwroundExt x) 12 .dwround x false none
    ∧ Shape.Vector (.vcsum d a) 4 .csum (baseExt (.v d) (.v a) Spec.zero) true none
    ∧ Shape.Vector (.vcsumExt x) 12 .csum x false none
    ∧ Shape.Vector (.vcdot d a b) 4 .cdot (baseExt (.v d) (.v a) (.v b)) true none
    ∧ Shape.Vector (.vcdotExt x) 12 .cdot x false none
    ∧ Shape.Vector (.vcvt d a b) 4 .cvt (baseExt (.v d) (.v a) (.v b)) true none
    ∧ Shape.Vector (.vcvtExt x) 12 .cvt x false none
    ∧ Shape.Vector (.vcvti d a) 4 .cvti (baseExt (.v d) (.v a) Spec.zero) true none
    ∧ Shape.Vector (.vcvtiExt x) 12 .cvti x false none
    ∧ Shape.Vector (.vcvtf d a) 4 .cvtf (baseExt (.v d) (.v a) Spec.zero) true none
    ∧ Shape.Vector (.vcvtfExt x) 12 .cvtf x false none
    ∧ Shape.Vector (.vpack d a b) 4 .pack (baseExt (.v d) (.v a) (.v b)) true none
    ∧ Shape.Vector (.vpackExt x) 12 .pack x false none
    ∧ Shape.Vector (.vrcp d a) 4 .rcp (baseExt (.v d) (.v a) Spec.zero) true none
    ∧ Shape.Vector (.vrcpExt x) 12 .rcp x false none
    ∧ Shape.Vector (.vrsq d a) 4 .rsq (baseExt (.v d) (.v a) Spec.zero) true none
    ∧ Shape.Vector (.vrsqExt x) 12 .rsq x false none
    ∧ Shape.Vector (.vexp2 d a) 4 .exp2 (baseExt (.v d) (.v a) Spec.zero) true none
    ∧ Shape.Vector (.vexp2Ext x) 12 .exp2 x false none

/-- R156-R159: the integer, compare and select instructions, in every form:
once the checks pass they are in the sequencer, and with nothing else there their instance runs. -/
def Sys2Proof.Claims.VectorIntegerForms : Prop :=
  ∀ (wt : WType) (d : VOpd) (a : VOpd) (b : VOpd) (x : Ext) (ft : FType) (sd : SOpd),
    Shape.Vector (.viadd wt d a b) 4 (.iadd wt) (baseExt (.v d) (.v a) (.v b)) true none
    ∧ Shape.Vector (.viaddExt wt x) 12 (.iadd wt) x false none
    ∧ Shape.Vector (.visub wt d a b) 4 (.isub wt) (baseExt (.v d) (.v a) (.v b)) true none
    ∧ Shape.Vector (.visubExt wt x) 12 (.isub wt) x false none
    ∧ Shape.Vector (.vimul wt d a b) 4 (.imul wt) (baseExt (.v d) (.v a) (.v b)) true none
    ∧ Shape.Vector (.vimulExt wt x) 12 (.imul wt) x false none
    ∧ Shape.Vector (.vimin wt d a b) 4 (.imin wt) (baseExt (.v d) (.v a) (.v b)) true none
    ∧ Shape.Vector (.viminExt wt x) 12 (.imin wt) x false none
    ∧ Shape.Vector (.vimax wt d a b) 4 (.imax wt) (baseExt (.v d) (.v a) (.v b)) true none
    ∧ Shape.Vector (.vimaxExt wt x) 12 (.imax wt) x false none
    ∧ Shape.Vector (.viand wt d a b) 4 (.iand wt) (baseExt (.v d) (.v a) (.v b)) true none
    ∧ Shape.Vector (.viandExt wt x) 12 (.iand wt) x false none
    ∧ Shape.Vector (.vior wt d a b) 4 (.ior wt) (baseExt (.v d) (.v a) (.v b)) true none
    ∧ Shape.Vector (.viorExt wt x) 12 (.ior wt) x false none
    ∧ Shape.Vector (.vixor wt d a b) 4 (.ixor wt) (baseExt (.v d) (.v a) (.v b)) true none
    ∧ Shape.Vector (.vixorExt wt x) 12 (.ixor wt) x false none
    ∧ Shape.Vector (.visll wt d a b) 4 (.isll wt) (baseExt (.v d) (.v a) (.v b)) true none
    ∧ Shape.Vector (.visllExt wt x) 12 (.isll wt) x false none
    ∧ Shape.Vector (.visrl wt d a b) 4 (.isrl wt) (baseExt (.v d) (.v a) (.v b)) true none
    ∧ Shape.Vector (.visrlExt wt x) 12 (.isrl wt) x false none
    ∧ Shape.Vector (.vifsl wt d a b) 4 (.ifsl wt) (baseExt (.v d) (.v a) (.v b)) true none
    ∧ Shape.Vector (.vifslExt wt x) 12 (.ifsl wt) x false none
    ∧ Shape.Vector (.vifsr wt d a b) 4 (.ifsr wt) (baseExt (.v d) (.v a) (.v b)) true none
    ∧ Shape.Vector (.vifsrExt wt x) 12 (.ifsr wt) x false none
    ∧ Shape.Vector (.veq ft sd a b) 4 (.eq ft) (baseExt (.s sd) (.v a) (.v b)) true none
    ∧ Shape.Vector (.veqExt ft x) 12 (.eq ft) x false none
    ∧ Shape.Vector (.vlt ft sd a b) 4 (.lt ft) (baseExt (.s sd) (.v a) (.v b)) true none
    ∧ Shape.Vector (.vltExt ft x) 12 (.lt ft) x false none
    ∧ Shape.Vector (.vle ft sd a b) 4 (.le ft) (baseExt (.s sd) (.v a) (.v b)) true none
    ∧ Shape.Vector (.vleExt ft x) 12 (.le ft) x false none
    ∧ Shape.Vector (.vne ft sd a b) 4 (.ne ft) (baseExt (.s sd) (.v a) (.v b)) true none
    ∧ Shape.Vector (.vneExt ft x) 12 (.ne ft) x false none
    ∧ Shape.Vector (.vuno ft sd a b) 4 (.uno ft) (baseExt (.s sd) (.v a) (.v b)) true none
    ∧ Shape.Vector (.vunoExt ft x) 12 (.uno ft) x false none
    ∧ Shape.Vector (.vieq wt sd a b) 4 (.ieq wt) (baseExt (.s sd) (.v a) (.v b)) true none
    ∧ Shape.Vector (.vieqExt wt x) 12 (.ieq wt) x false none
    ∧ Shape.Vector (.vilt wt sd a b) 4 (.ilt wt) (baseExt (.s sd) (.v a) (.v b)) true none
    ∧ Shape.Vector (.viltExt wt x) 12 (.ilt wt) x false none
    ∧ Shape.Vector (.vsel x) 12 .sel x false none

/-- R166-R175: the moves, the data-dependent helpers and the vector memory instructions, in every form:
once the checks pass they are in the sequencer, and with nothing else there their instance runs. -/
def Sys2Proof.Claims.VectorDataAndMemoryForms : Prop :=
  ∀ (d : VOpd) (k : BitVec 5) (off : BitVec 14) (a : VOpd) (x : Ext) (wt : WType) (sa : SOpd) (lit : Word) (b : VOpd) (sb : SOpd) (sd : SOpd),
    Shape.Vector (.vld d k off) 4 .ld { baseExt (.v d) (.s (SOpd.ofBits k)) Spec.zero with imm := off.signExtend 32 * 128 } true none
    ∧ Shape.Vector (.vst d k off) 4 .st { baseExt (.v d) (.s (SOpd.ofBits k)) Spec.zero with imm := off.signExtend 32 * 128 } true none
    ∧ Shape.Vector (.vmov d a) 4 .mov (baseExt (.v d) (.v a) Spec.zero) true none
    ∧ Shape.Vector (.vmovExt x) 12 .mov x false none
    ∧ Shape.Vector (.vbcst wt d sa) 4 (.bcst wt) (baseExt (.v d) (.s sa) Spec.zero) true none
    ∧ Shape.Vector (.vbcstExt wt x) 12 (.bcst wt) x false none
    ∧ Shape.Vector (.vbcstLiteral wt x lit) 20 (.bcst wt) x false (some lit)
    ∧ Shape.Vector (.vperm wt d a b) 4 (.perm wt) (baseExt (.v d) (.v a) (.v b)) true none
    ∧ Shape.Vector (.vpermExt wt x) 12 (.perm wt) x false none
    ∧ Shape.Vector (.vins wt d sa sb) 4 (.ins wt) (baseExt (.v d) (.s sa) (.s sb)) true none
    ∧ Shape.Vector (.vinsExt wt x) 12 (.ins wt) x false none
    ∧ Shape.Vector (.vext wt sd a sb) 4 (.ext wt) (baseExt (.s sd) (.v a) (.s sb)) true none
    ∧ Shape.Vector (.vextExt wt x) 12 (.ext wt) x false none
    ∧ Shape.Vector (.vcomp d a sb) 4 .comp (baseExt (.v d) (.v a) (.s sb)) true none
    ∧ Shape.Vector (.vcompExt x) 12 .comp x false none
    ∧ Shape.Vector (.vexpd d a sb) 4 .expd (baseExt (.v d) (.v a) (.s sb)) true none
    ∧ Shape.Vector (.vexpdExt x) 12 .expd x false none
    ∧ Shape.Vector (.vksort d a) 4 .ksort (baseExt (.v d) (.v a) Spec.zero) true none
    ∧ Shape.Vector (.vksortExt x) 12 .ksort x false none
    ∧ Shape.Vector (.vsearch d a b) 4 .search (baseExt (.v d) (.v a) (.v b)) true none
    ∧ Shape.Vector (.vsearchExt x) 12 .search x false none
    ∧ Shape.Vector (.vconf d a) 4 .conf (baseExt (.v d) (.v a) Spec.zero) true none
    ∧ Shape.Vector (.vconfExt x) 12 .conf x false none
    ∧ Shape.Vector (.vldx x) 12 .ldx x false none
    ∧ Shape.Vector (.vstx x) 12 .stx x false none
    ∧ Shape.Vector (.vlds x) 12 .lds x false none
    ∧ Shape.Vector (.vsts x) 12 .sts x false none
    ∧ Shape.Vector (.vldu x) 12 .ldu x false none
    ∧ Shape.Vector (.vstu x) 12 .stu x false none
    ∧ Shape.Vector (.vstm x) 12 .stm x false none
    ∧ Shape.Vector (.vldt x) 12 .ldt x false none
    ∧ Shape.Vector (.vstt x) 12 .stt x false none

/-- R140-R155, R160-R165: the floating-point, packed, reduction, pair, conversion and approximation instructions; when an instance runs is the model's schedule (log 6). -/
def Obligations.VectorArithmeticForms : Prop :=
  Claims.VectorFloatForms ∧ Claims.VectorPairForms

/-- R156-R159, R166-R175: the integer, comparing, moving, data-dependent and memory instructions; when an instance runs is the model's schedule (log 6). -/
def Obligations.VectorIntegerDataAndMemoryForms : Prop :=
  Claims.VectorIntegerForms ∧ Claims.VectorDataAndMemoryForms

/-! ### Tensors (R294-R318) -/

namespace Sys2Proof.Shape

/-- A tensor instruction of n bytes with these source operands and this destination: it reads OA, OB and OC, does
something, and goes on. An operand that the form does not use is w0. -/
def Tens (i : Instr) (x : Ext) (srcs : List Spec) (od : Option Spec) (n : Nat) (does : Word → Word → Word → State → State → Prop) : Prop :=
  ∀ (s t u v w y : State) (a b c : Word), s.Issues (tensChecks srcs od) (scalarsOf (srcs ++ od.toList)) .drain t →
    t.twiceCheck (linksOf (scalarsOf srcs)) = .ok () → t.readS (opdOf x.oa) = .ok (a, u) → u.readS (opdOf x.ob) = .ok (b, v) →
    v.readS (opdOf x.oc) = .ok (c, w) → does a b c w y → exec i s = .next (y.advance n).completed

/-- The handle that a register destination names. -/
def named (x : Ext) (s : State) (d : Word) : Prop := ∃ n : Fin 24, x.od = .s (.w n) ∧ d = wGet s.slot.w n

end Sys2Proof.Shape

/-- R299, R311: tnew makes a READY tensor with the shape, the format and the repertoire of its descriptor, and a handle
that was not issued before and is not 0; where there is no storage it writes 0. -/
def Sys2Proof.Claims.TensorCreated : Prop :=
  ∀ (x : Ext), Shape.Tens (.tnew x) x [x.oa] (some x.od) 12 (fun a _ _ s t =>
    x.scp ≠ .core ∧ a.toNat % 64 = 0 ∧ ∃ ws u, s.loadWords a 8 = .ok (ws, u) ∧ descriptorOk ws = true
      ∧ ((Config.freeStorage u.free = false ∧ u.drew.writeS (opdOf x.od) 0 = .ok t)
        ∨ (Config.freeStorage u.free = true
          ∧ (u.drew.numbered.addTensor ((tensorOfWords ws u.freshHandle (u.ids + 1) (u.core.aspace.extractLsb' 52 12) u.coreId x.scp).formed
              (Config.freeForm u.free).toNat)).writeS (opdOf x.od) u.freshHandle = .ok t)))

/-- R294: a new handle is not 0 and was never issued, and a tensor's handle counts as issued from then on. -/
def Sys2Proof.Claims.HandlesAreNew : Prop := ∀ s : State, s.handles.length < 2 ^ 63 → s.freshHandle ≠ 0 ∧ s.freshHandle ∉ s.handles
  ∧ ∀ d : Tensor, (s.addTensor d).tensors = d :: s.tensors ∧ (s.addTensor d).handles = d.handle :: s.handles

/-- R312: tfree makes its handle FREED at once, and twiden makes the bits that are not in effect pending. -/
def Sys2Proof.Claims.TensorFreedAndWidened : Prop :=
  ∀ (x : Ext),
    Shape.Tens (.tfree x) x [x.oa] none 12 (fun a _ _ s t => ∃ d, s.named a = .ok d
      ∧ t = (s.accept a 0 .free).setTensor { d with st := .freed })
    ∧ Shape.Tens (.twiden x) x [x.oa, x.ob] none 12 (fun a b _ s t => ∃ d, s.named a = .ok d ∧ b.toNat < 2 ^ 16
      ∧ repOk d.fmt (d.rep ||| b.setWidth 16) = true
      ∧ ((b.setWidth 16 &&& ~~~d.rep = 0 ∧ t = s)
        ∨ (b.setWidth 16 &&& ~~~d.rep ≠ 0 ∧ t = s.setTensor { d with
            pending := d.pending ||| (b.setWidth 16 &&& ~~~d.rep)
            askers := if d.askers.contains s.self then d.askers else s.self :: d.askers })))

/-- R313: tget reads an element, with protection (R266, R301); tset, tfill and tfill with a literal are accepted with the code, which fits the format. -/
def Sys2Proof.Claims.TensorElements : Prop :=
  ∀ (x : Ext) (lit : Word),
    Shape.Tens (.tget x) x [x.oa, x.ob, x.oc] (some x.od) 12 (fun a b c s t => ∃ d n, s.named a = .ok d ∧ d.index b c = some n
      ∧ d.rep.getLsbD 0 = true ∧ d.st ≠ .reforming ∧ s.tops.any (fun o => o.from_.ident == s.slot.par.ident && o.names a) = false
      ∧ ∃ r, s.tensorScan s.self d [n] (fun _ => d.d0 == 1 || d.d1 == 1) = .ok r
      ∧ (r.readElem r.self d n).2.writeS (opdOf x.od) (BitVec.ofNat 64 (r.readElem r.self d n).1) = .ok t)
    ∧ Shape.Tens (.tfill x) x [x.oa, x.ob] none 12 (fun a b _ s t => ∃ d, s.named a = .ok d ∧ b.toNat < 2 ^ elemWidth d.fmt
      ∧ d.rep.getLsbD 2 = true ∧ t = s.accept a 0 (.fill b.toNat))
    ∧ Shape.Tens (.tfillLiteral x lit) x [x.oa] none 20 (fun a _ _ s t => ∃ d, s.named a = .ok d ∧ lit.toNat < 2 ^ elemWidth d.fmt
      ∧ d.rep.getLsbD 2 = true ∧ t = s.accept a 0 (.fill lit.toNat))
    ∧ ∀ (s t u v w y : State) (a b c e : Word) (d : Tensor) (n : Nat),
      s.Issues (tensChecks [x.oa, x.ob, x.oc, x.od] none) (scalarsOf [x.oa, x.ob, x.oc, x.od]) .drain t →
      t.twiceCheck (linksOf (scalarsOf [x.oa, x.ob, x.oc, x.od])) = .ok () → t.readS (opdOf x.oa) = .ok (a, u) →
      u.readS (opdOf x.ob) = .ok (b, v) → v.readS (opdOf x.oc) = .ok (c, w) → w.readS (opdOf x.od) = .ok (e, y) →
      y.named a = .ok d → d.index b c = some n → e.toNat < 2 ^ elemWidth d.fmt → d.rep.getLsbD 1 = true →
      exec (.tset x) s = .next ((y.accept a 0 (.set n e.toNat)).advance 12).completed

/-- R314, R315: the arithmetic and the rearranging operations are accepted on tensors of the shapes that their rules
give, with the repertoire bit of each. -/
def Sys2Proof.Claims.TensorArithmeticAccepted : Prop :=
  ∀ (x : Ext),
    Shape.Tens (.tscale x) x [x.oa, x.ob] none 12 (fun a b _ s t => ∃ d, s.named a = .ok d ∧ d.rep.getLsbD 3 = true
      ∧ t = s.accept a 0 (.scale b (modeOf x.ro none s.slot.status) (x.imm.getLsbD 0)))
    ∧ Shape.Tens (.tadd x) x [x.oa, x.ob] (some x.od) 12 (fun a b _ s t => ∃ h d p q, Shape.named x s h ∧ s.named h = .ok d
      ∧ s.named a = .ok p ∧ s.named b = .ok q ∧ d.dims = p.dims ∧ p.dims = q.dims
      ∧ d.rep.getLsbD 4 = true ∧ p.rep.getLsbD 4 = true ∧ q.rep.getLsbD 4 = true
      ∧ t = s.accept h a (.add b (modeOf x.ro none s.slot.status) (x.imm.getLsbD 0)))
    ∧ ∀ (i : Instr) (bit : Nat) (shape : Tensor → Tensor → Prop) (work : Rm → Bool → TWork), (i, bit, shape, work) ∈ [
        (Instr.trowsum x, 5, fun d a => d.dims = (a.d1, a.d2, a.d3, 1), .rowSum),
        (.tcolsum x, 6, fun d a => d.dims = (a.d0, a.d2, a.d3, 1), .colSum),
        (.trowmax x, 7, fun d a => d.dims = (a.d1, a.d2, a.d3, 1), .rowMax),
        (.ttrans x, 8, fun d a => d.fmt = a.fmt ∧ d.dims = (a.d1, a.d0, a.d2, a.d3), fun _ _ => .trans)] →
      Shape.Tens i x [x.oa] (some x.od) 12 (fun a _ _ s t => ∃ h d p, Shape.named x s h ∧ s.named h = .ok d ∧ s.named a = .ok p
        ∧ h ≠ a ∧ shape d p ∧ d.rep.getLsbD bit = true ∧ p.rep.getLsbD bit = true
        ∧ t = s.accept h a (work (modeOf x.ro none s.slot.status) (x.imm.getLsbD 0)))

/-- R314: tconv takes its rounding mode and its saturation from its cue, which it consumes, and otherwise from OB and
STATUS. -/
def Sys2Proof.Claims.TensorConverted : Prop :=
  ∀ (x : Ext) (s t u : State) (a h : Word) (d p : Tensor), convCueBad s.pendingCue = false →
    s.Issues { tensChecks [x.oa] (some x.od) with formats := true } (scalarsOf [x.oa, x.od]) .drain t →
    t.readS (opdOf x.oa) = .ok (a, u) → Shape.named x u h → u.named h = .ok d → u.named a = .ok p → d.dims = p.dims →
    d.rep.getLsbD 9 = true → p.rep.getLsbD 9 = true →
    let v := u.accept h a (.conv (modeOf x.ro s.pendingCue u.slot.status) (match s.pendingCue with | some c => c.getLsbD 15 | none => false))
    exec (.tconv x) s = .next (State.advance { v with slot := v.slot.takeCue } 12).completed

/-- R316: tcopyin and tcopyout take a layout record of the tensor's format and extents whose elements all resolve. -/
def Sys2Proof.Claims.TensorCopies : Prop :=
  ∀ (x : Ext),
    let take (bit : Nat) (k : Acc) (work : Layout → Option Scope → Option Scope → TWork) (a b _c : Word) (s t : State) : Prop :=
      ∃ d l u v, s.named a = .ok d ∧ s.readLayout b = .ok (l, u) ∧ l.fmt = d.fmt ∧ (l.e0, l.e1, l.e2, l.e3) = d.dims
        ∧ u.resolveWalk (elemBytes l.fmt) k l.walk = .ok v ∧ d.rep.getLsbD bit = true
        ∧ t = (v.accept a 0 (work l (if x.acq then some x.scp else none) (if x.rel then some x.scp else none))).passOn v.self
            (v.origin.agent v.coreId (.tensor a))
    Shape.Tens (.tcopyin x) x [x.oa, x.ob] none 12 (take 15 .load .copyIn)
    ∧ Shape.Tens (.tcopyout x) x [x.oa, x.ob] none 12 (take 14 .store .copyOut)

/-- R317, R318: tsync goes on once the context's operations on the handle, or all of them, are performed; tinfo reads a
handle's state, and shape, repertoire and operations in flight. -/
def Sys2Proof.Claims.TensorWaitAndInfo : Prop :=
  ∀ (x : Ext),
    (∀ (s t u : State) (a : Word), s.Issues (tensChecks [x.oa] none) (scalarsOf [x.oa]) .drain t → t.readS (opdOf x.oa) = .ok (a, u) →
      (x.oa = Spec.zero → u.tensorsPending none = false →
        exec (.tsync x) s = .next ((u.covered fun _ e => match e with | .tensor _ => true | _ => false).yieldPoint.advance 12).completed)
      ∧ (∀ d, x.oa ≠ Spec.zero → u.named a = .ok d → u.tensorsPending (some a) = false →
        exec (.tsync x) s = .next ((u.covered fun _ e => match e with | .tensor k => a == k | _ => false).yieldPoint.advance 12).completed))
    ∧ Shape.Tens (.tinfo x) x [x.oa] (some x.od) 12 (fun a _ _ s t => ∃ d r, s.namedAny a = .ok d ∧ s.writeS (opdOf x.od) r = .ok t
      ∧ r = (if d.st = .freed then (if x.imm.toNat % 4 = 1 then 0x200000000 else 0)
        else if x.imm.toNat % 4 = 0 then d.form
        else if x.imm.toNat % 4 = 1 then
          BitVec.ofNat 64 (d.rep.toNat + d.pending.toNat * 2 ^ 16 + (if d.st = .reforming then 2 ^ 32 else 0))
        else if x.imm.toNat % 4 = 2 then BitVec.ofNat 64 (d.fmt.code.toNat * 2 ^ 16 + d.rank * 2 ^ 20 + d.d0 * 2 ^ 40)
        else BitVec.ofNat 64 (s.inFlight d.handle)))
    ∧ ∀ (d : Tensor) (n : Nat), let f := (d.formed n).form.toNat
      f / 4 % 64 = 0 ∧ f / 2 ^ 12 % 16 = 0 ∧ f / 2 ^ 32 = 0 ∧ f % 4 ≤ 2 ∧ (2 ≤ f / 2 ^ 10 % 4 → d.scope = .pkg ∨ d.scope = .sys)
        ∧ 1 ≤ f / 2 ^ 16 ∧ (f / 2 ^ 10 % 4 = 0 → f / 2 ^ 16 = 1)

/-- R306, R307, R308: an accepted operation that may be performed is performed at its home; a decision of the form
manager makes a change pending. -/
def Sys2Proof.Claims.TensorEvents : Prop :=
  (∀ (s t : State) (i : Nat) (o : TOp) (d a : Tensor), s.tops[i]? = some o → o.ready (s.tops.take i) = true →
    s.tensors.find? (·.handle == o.dst) = some d → s.tensors.find? (·.handle == (if o.src = 0 then o.dst else o.src)) = some a →
    s.perform o d a false = .ok t → exec (.tensorOperationPerformed i) s = .next (t.performed o))
  ∧ (∀ (s : State) (h : Word) (form : Nat) (d : Tensor), s.tensors.find? (·.handle == h) = some d → d.st ≠ .freed →
    exec (.formManagerDecision h form) s = .next (s.setTensor { d with reform := true, want := some form }))

/-- R296, R313: performing tset writes one element and performing tfill every one: each takes the code, and no byte of
memory outside the elements changes; where what it reads of them holds an uncorrectable error, or no route takes it to its sources
(R395), the operation ends with a machine check and writes nothing (R266, R367). -/
def Obligations.TensorWritesReachTheirElements : Prop :=
  ∀ (s t u : State) (o : TOp) (d a : Tensor) (code : Nat) (refused : Bool), code < 2 ^ 32 → Memory.wf s.mem = true →
    (∀ k, s.homesReach o d a = .error (.trap k) → s.perform o d a refused = .ok (s.reportCheck o.from_.kid o.core k))
    ∧ (∀ n, o.work = .set n code → s.homesReach o d a = .ok () → s.scanFor o d a = .ok u → s.perform o d a refused = .ok t →
      Memory.bytes t.mem (d.key n) 4 = toBytes 4 code
      ∧ ∀ k, k < d.key n ∨ d.key n + 4 ≤ k → Memory.get t.mem k = Memory.get s.mem k)
    ∧ (∀ k, s.homesReach o d a = .ok () → s.scanFor o d a = .error (.trap k) → s.perform o d a refused = .ok (s.reportCheck o.from_.kid o.core k)
      ∧ (s.reportCheck o.from_.kid o.core k).mem = s.mem)
    ∧ (o.work = .fill code → s.homesReach o d a = .ok () → s.scanFor o d a = .ok u → s.perform o d a refused = .ok t →
      (∀ n, n < d.size → Memory.bytes t.mem (d.key n) 4 = toBytes 4 code)
      ∧ ∀ k, k < d.key 0 ∨ d.key d.size ≤ k → Memory.get t.mem k = Memory.get s.mem k)

/-- R294-R313: creating, freeing and widening tensors, and their elements. -/
def Obligations.TensorsMadeAndAccessed : Prop :=
  Claims.TensorCreated ∧ Claims.HandlesAreNew ∧ Claims.TensorFreedAndWidened ∧ Claims.TensorElements ∧ Claims.TensorWaitAndInfo

/-- R306-R316: the operations on tensors. -/
def Obligations.TensorOperations : Prop :=
  Claims.TensorArithmeticAccepted ∧ Claims.TensorConverted ∧ Claims.TensorCopies ∧ Claims.TensorEvents

/-! ### The matrix unit, the copy engine and the bank transforms (R327-R348) -/

/-- R335: mxr gives 1 and takes the claim, with the configuration, where it is free or held by the context, and gives 0
and changes nothing else otherwise; a bit from 5 on traps with 0x0101, and a side without a neighbour in the link
rectangle with 0x0806. -/
def Sys2Proof.Claims.MatrixClaimed : Prop :=
  ∀ (x : Ext) (s t u v : State) (w : Word), s.Issues (specChecks [x.oa] [x.od]) (scalarsOf [x.od, x.oa]) .drain t →
    t.readS (opdOf x.oa) = .ok (w, u) →
    (w.toNat ≥ 32 → exec (.mxr x) s = .next (t.scalarTrap { cause := 0x0101 }))
    ∧ (w.toNat < 32 → u.offRectangle w = true → exec (.mxr x) s = .next (t.scalarTrap { cause := 0x0806 }))
    ∧ (w.toNat < 32 → u.offRectangle w = false → (u.core.mx.claim = none ∨ u.core.mx.claim = some u.slot.par.ident) →
      w.getLsbD 4 = false →
      State.writeS { u with core := { u.core with mx := u.core.mx.configured u.slot.par.ident w } } (opdOf x.od) 1 = .ok v →
      exec (.mxr x) s = .next (v.advance 12).completed)
    ∧ (∀ i, w.toNat < 32 → u.offRectangle w = false → u.core.mx.claim = some i → i ≠ u.slot.par.ident → u.writeS (opdOf x.od) 0 = .ok v →
      exec (.mxr x) s = .next (v.advance 12).completed)

/-- R336: mxz binds an M by N accumulator in a READY tile of the core's, and queues its zeroing. -/
def Sys2Proof.Claims.MatrixZeroed : Prop :=
  ∀ (x : Ext) (s t u v : State) (w : Word) (e m n : Nat), tileOf x.od = some e → s.Issues (specChecks [x.ob] []) (scalarsOf [x.ob]) .drain t →
    t.readS (opdOf x.ob) = .ok (w, u) → u.core.mx.claim = some u.slot.par.ident → w.toNat = m + n * 2 ^ 16 → 1 ≤ m → m ≤ 4096 →
    1 ≤ n → n ≤ 96 → u.tileArmed e = .ok () → 4 * m * n ≤ u.tileLen (u.tteHome u.coreId e) → u.mxPush (.zero e m n) = .ok v →
    exec (.mxz x) s = .next (State.advance { v with core := { v.core with mx := { v.core.mx with acc := some (e, m, n) } } } 12).completed

/-- R337: mxb and mxa, with their operands in own tiles, without scales and without the neighbour's operand, are queued with
their cue, which they consume. That a tile of B holds k rows of Nc elements and one of A M rows of Kc, and that a queued mxb
counts as the chunk that an mxa is judged by, are the model's reading (log 28, DEDUCED). -/
def Sys2Proof.Claims.MatrixQueued : Prop :=
  ∀ (x : Ext) (s t u v : State) (cue : BitVec 24) (e : Nat) (org : Word), s.pendingCue = some cue → mxCueOk cue = true →
    cueBlock cue = 0 → cueTsf cue = 0 → tileOf x.oa = some e → x.ob = Spec.zero → x.oc = Spec.zero →
    t.twiceCheck (linksOf (scalarsOf [x.oa, x.ob, x.oc, x.od])) = .ok () → t.readS (opdOf x.od) = .ok (org, u) →
    u.core.mx.claim = some u.slot.par.ident →
    (∀ (n k : Nat), s.Issues (s.mxChecks x 0) (scalarsOf [x.od, x.oa, x.ob, x.oc]) .drain t → x.imm.toNat = n + 256 * k →
      1 ≤ n → n ≤ chunkN (cueBf cue) → 1 ≤ k → k ≤ chunkK (cueBf cue) →
      u.core.mx.cfg.getLsbD 0 = false → u.tileArmed e = .ok () →
      k * chunkN (cueBf cue) * elemStorage (cueBf cue) / 8 ≤ u.tileLen (u.tteHome u.coreId e) →
      u.mxPush (.loadB (.tile (u.tteHome u.coreId e).1 (u.tteHome u.coreId e).2) .none org cue 0 n k
        (if x.acq then some x.scp else none) false (u.core.mx.cfg.getLsbD 1)) = .ok v →
      exec (.mxb x) s = .next (State.advance { v with core := { v.core with mx := { v.core.mx with lastCue := some cue } }
                                                      slot := v.slot.takeCue } 12).completed)
    ∧ (∀ (k acc m n : Nat), s.Issues (s.mxChecks x 2) (scalarsOf [x.od, x.oa, x.ob, x.oc]) .drain t → x.imm.toNat = 256 * k →
      1 ≤ k → k ≤ chunkK (cueAf cue) → u.currentCue.isSome = true → u.accumulator = .ok (acc, m, n) →
      u.core.mx.cfg.getLsbD 2 = false → u.tileArmed e = .ok () →
      m * chunkK (cueAf cue) * elemStorage (cueAf cue) / 8 ≤ u.tileLen (u.tteHome u.coreId e) →
      u.mxPush (.streamA (.tile (u.tteHome u.coreId e).1 (u.tteHome u.coreId e).2) .none org cue 0 k
        (if x.acq then some x.scp else none) false (u.core.mx.cfg.getLsbD 3) acc m n) = .ok v →
      exec (.mxa x) s = .next (State.advance { v with slot := v.slot.takeCue } 12).completed)
    ∧ (u.currentCue = none → s.Issues (s.mxChecks x 2) (scalarsOf [x.od, x.oa, x.ob, x.oc]) .drain t →
      exec (.mxa x) s = .next (t.scalarTrap { cause := 0x0A01 }))

/-- R338, R339: mxo queues the conversion of the accumulator into another READY tile that is long enough; mxw goes on with
1 once the context's matrix commands have completed without a fault, and with 0 once its kernel has ended; without the
claim, when it is issued, it traps with 0x0A00. -/
def Sys2Proof.Claims.MatrixOutAndWait : Prop :=
  ∀ (x : Ext) (s t : State),
    (∀ (v : State) (e m n d : Nat), x.et = .fp32 ∨ x.et = .bf16 ∨ x.et = .fp16 → tileOf x.od = some d → s.Issues {} [] .drain t →
      t.core.mx.claim = some t.slot.par.ident → t.accumulator = .ok (e, m, n) → t.tileArmed d = .ok () →
      t.tteHome t.coreId d ≠ t.tteHome t.coreId e → elemBytes x.et * m * n ≤ t.tileLen (t.tteHome t.coreId d) →
      t.mxPush (.convert e m n d x.et (modeOf x.ro none t.slot.status) (x.imm.getLsbD 0) (if x.rel then some x.scp else none)) = .ok v →
      exec (.mxo x) s = .next (v.advance 12).completed)
    ∧ (s.Issues (specChecks [] [x.od]) (scalarsOf [x.od]) .drain t → t.slot.st ≠ .waiting → t.core.mx.claim ≠ some t.slot.par.ident →
      exec (.mxw x) s = .next (t.scalarTrap { cause := 0x0A00 }))
    ∧ (∀ u, s.Issues (specChecks [] [x.od]) (scalarsOf [x.od]) .drain t →
      (t.slot.st = .waiting ∨ t.core.mx.claim = some t.slot.par.ident) → t.kernelRuns = true → t.mxPending = false →
      t.faultOf true = none → (t.covered fun _ e => e == .matrix).writeS (opdOf x.od) 1 = .ok u →
      exec (.mxw x) s = .next (u.yieldPoint.advance 12).completed)
    ∧ (∀ u, s.Issues (specChecks [] [x.od]) (scalarsOf [x.od]) .drain t →
      (t.slot.st = .waiting ∨ t.core.mx.claim = some t.slot.par.ident) → t.kernelRuns = false → t.writeS (opdOf x.od) 0 = .ok u →
      exec (.mxw x) s = .next (u.yieldPoint.advance 12).completed)

/-- R323, R331, R332, R336-R338: the head of a core's matrix queue, when its turn has come and no fault of its context
is recorded, runs and leaves the queue; a chunk that waits to be forwarded reaches the neighbour; a fault leaves the writes
that its command has made; a page that the operating system refused is asked for no longer. -/
def Sys2Proof.Claims.MatrixEvents : Prop :=
  ∀ (s t : State) (core : Nat) (q : MxCmd), s.mxHead core = some q →
    (s.discards core q.from_ true = false → s.mxRun core q = some (t, none) →
      (∀ e m n, q.op = .zero e m n → exec (.accumulatorZeroed core) s = .next (t.mxPop core q.from_.id))
      ∧ (∀ src sc org c ts n k acq fwd, q.op = .loadB src sc org c ts n k acq false fwd →
          exec (.chunkLoaded core) s = .next (t.mxPop core q.from_.id))
      ∧ (∀ src sc org c ts k acq fwd e m n, q.op = .streamA src sc org c ts k acq false fwd e m n →
          exec (.accumulate core) s = .next (t.mxPop core q.from_.id))
      ∧ (∀ e m n d et rm clear rel, q.op = .convert e m n d et rm clear rel →
          exec (.accumulatorConverted core) s = .next (t.mxPop core q.from_.id)))
    ∧ (∀ c, neighbour c .s = some core → ∀ b bs src sc org cue ts n k acq fwd,
      (s.coreAt c).mx.southward = b :: bs → q.op = .loadB src sc org cue ts n k acq true fwd → s.discards core q.from_ true = false →
      sameFormats b.cue cue = true →
      exec (.chunkForward c) s = .next ((((s.mapMx c fun m => { m with southward := bs }).acquireFor (q.from_.agent core .matrix) acq).loadChunk
        core b q.epoch fwd).mxPop core q.from_.id))
    ∧ (∀ (stop : CmdStop) (f : BitVec 16) (a : Word) (refused : Bool), s.discards core q.from_ true = false →
      s.mxRun core q = some (t, some stop) → stop.ending refused = some (.fault f a) →
      exec (.commandFault core q.from_.id refused) s = .next (((t.mxPop core q.from_.id).recordFault core q.from_ true f a).refusedAt core stop))

/-- R332, R333: an accumulator element takes, K-block by K-block, the FP32 rounding to nearest even of its value and the
exact block sum, and stays where the block sum is zero; with no index in common it stays as it is. -/
def Sys2Proof.Claims.AccumulatorElements : Prop :=
  ∀ (a : AStream) (b : Chunk) (r n acc : Nat),
    (min a.k b.k = 0 → (accumulated a b r n acc).code = acc)
    ∧ (1 ≤ min a.k b.k → min a.k b.k ≤ kBlock b.cue → (accumulated a b r n acc).code =
      if (blockSum a b r n 0 (min a.k b.k)).isZero then acc
      else (fp32.round .rne false false (FVal.add false (fp32.decode acc) (blockSum a b r n 0 (min a.k b.k)))).code)

/-- R327-R339: the matrix unit. -/
def Obligations.MatrixInstructions : Prop :=
  Claims.MatrixClaimed ∧ Claims.MatrixZeroed ∧ Claims.MatrixQueued ∧ Claims.MatrixOutAndWait

/-- R323-R338: the running of matrix commands. -/
def Obligations.MatrixCommandsRun : Prop := Claims.MatrixEvents ∧ Claims.AccumulatorElements

/-- R340-R344: an xcopy to or from an own tile, without a barrier and without a multicast, is queued with its layout or its
rows. -/
def Sys2Proof.Claims.CopiesQueued : Prop :=
  ∀ (x : Ext) (s t : State) (e : Nat), tileOf x.od = some e → x.imm.getLsbD 2 = false →
    (∀ (i : Instr) (fill : Bool) (u v w : State) (a : Word) (l : Layout), (i, fill) ∈ [(Instr.xcopyFill x, true), (.xcopyDrain x, false)] →
      (fill = true → x.imm.toNat / 2 ^ 16 = 0) → s.Issues (xcopyChecks x [x.oa]) (scalarsOf [x.oa]) .drain t →
      t.twiceCheck (linksOf (scalarsOf [x.oa])) = .ok () → t.readS (opdOf x.oa) = .ok (a, u) →
      u.ownsTile u.coreId u.slot.tag e = true → u.readLayout a = .ok (l, v) → reachesWindow l = false →
      streamBytes l.fmt (l.e0 * l.e1 * l.e2 * l.e3) ≤ v.tileLen (v.tteHome v.coreId e) → (fill = false → v.tileArmed e = .ok ()) →
      v.queueCopy x (if fill then .fill l else .drain l) e (streamBytes l.fmt (l.e0 * l.e1 * l.e2 * l.e3))
        (l.e0 * l.e1 * l.e2 * l.e3 * elemStorage l.fmt) [v.tteHome v.coreId e] none none = .ok w →
      exec i s = .next (w.advance 12).completed)
    ∧ (∀ (i : Instr) (gather : Bool) (u v w : State) (h list : Word) (d : Tensor) (n : Nat),
      (i, gather) ∈ [(Instr.xcopyGather x, true), (.xcopyScatter x, false)] → n = x.imm.toNat / 8 % 4096 →
      (gather = true → x.imm.toNat / 2 ^ 16 = 0) → s.Issues (xcopyChecks x [x.oa, x.ob]) (scalarsOf [x.oa, x.ob]) .drain t →
      t.twiceCheck (linksOf (scalarsOf [x.oa, x.ob])) = .ok () → t.readS (opdOf x.oa) = .ok (h, u) → u.readS (opdOf x.ob) = .ok (list, v) →
      v.ownsTile v.coreId v.slot.tag e = true → v.named h = .ok d → d.rank ≤ 1 → list.toNat % 4 = 0 →
      streamBytes d.fmt (n * d.d0) ≤ v.tileLen (v.tteHome v.coreId e) → (gather = false → v.tileArmed e = .ok ()) →
      d.rep.getLsbD (if gather then 12 else 13) = true →
      v.queueCopy x (if gather then .gather h list n else .scatter h list n) e (streamBytes d.fmt (n * d.d0))
        (n * d.d0 * elemStorage d.fmt) [v.tteHome v.coreId e] none (some h) = .ok w →
      exec i s = .next (w.advance 12).completed)

/-- R346: xwait goes on once the context's copies, of one tile or all, have completed without a fault, or its kernel has
ended; a tile that the context does not own traps with 0x0901. -/
def Sys2Proof.Claims.CopiesAwaited : Prop :=
  ∀ (x : Ext) (s t : State), (tileOf x.oa).isSome = true ∨ x.oa = Spec.zero → s.Issues {} [] .drain t →
    (t.waitsOwn (tileOf x.oa) = false → exec (.xwait x) s = .next (t.scalarTrap { cause := 0x0901 }))
    ∧ (t.waitsOwn (tileOf x.oa) = true → t.kernelRuns = false → exec (.xwait x) s = .next (t.yieldPoint.advance 12).completed)
    ∧ (t.waitsOwn (tileOf x.oa) = true → t.kernelRuns = true → t.copiesPending (tileOf x.oa) = false → t.faultOf false = none →
      exec (.xwait x) s = .next ((t.covered fun _ e => match e with
        | .copy m => (match tileOf x.oa with | some n => m == n | none => true)
        | _ => false).yieldPoint.advance 12).completed)

/-- R258, R325, R342, R343: a fill begins on an EMPTY tile and leaves it FILLING; it completes once its stream has been
moved, and the tile is then READY; a drain begins on a READY tile and leaves it DRAINING; it completes, once moved, and
leaves it EMPTY; a fault empties the tiles begun and leaves what was written. That a command has moved no byte when it begins, and moves all
those of a target with the change of its tile's state, is the model's reading (log 30, DEDUCED, unsafe for a claim that bytes
have not moved after a command began). -/
def Sys2Proof.Claims.CopyEvents : Prop :=
  ∀ (s : State) (core id i : Nat) (c : XCmd) (g : XTarget), s.xcmd core id = some c → c.targets[i]? = some g →
    (c.mode.fills = true → (c.begun = true ∨ s.discards core c.from_ false = false) → s.canBegin core c i 0 = true →
      exec (.fillBegins core id i) s
        = .next ((s.setSt (g.core, g.entry) 1).setXcmd core (c.mark i fun t => { t with begun := true })))
    ∧ (∀ t d, c.mode.fills = true → s.xcmdTry core c i = some (t, none) → t.xcmd core id = some d →
      exec (.fillCompletes core id i) s
        = .next ((if d.targets.all (·.moved) then t.xcmdGone core d else t).letThrough s (.command id)))
    ∧ (∀ t bs, c.mode.fills = true → c.barrier = none → c.stream = some bs → g.entry < 64 → s.xcmdTry core c i = some (t, none) →
      tteSt (t.tteAt g.core g.entry) = 2)
    ∧ (i = 0 → c.mode.fills = false → (c.begun = true ∨ s.discards core c.from_ false = false) → s.canBegin core c 0 2 = true →
      exec (.drainBegins core id) s
        = .next ((s.setSt (g.core, g.entry) 3).setXcmd core (c.mark 0 fun t => { t with begun := true })))
    ∧ (∀ t, i = 0 → c.mode.fills = false → s.xcmdTry core c 0 = some (t, none) →
      exec (.drainCompletes core id) s
        = .next (((t.releaseOf (c.agent core) c.rel).setSt (g.core, g.entry) 0).xcmdGone core c))
    ∧ (∀ (t : State) (refused : Bool) (stop e : CmdStop), s.mxFault core id refused = none →
      (List.range c.targets.length).findSome? (s.xcmdTry core c) = some (t, some stop) → stop.ending refused = some e →
      exec (.commandFault core id refused) s
        = .next ((((t.abandonTiles c).xcmdGone core ((t.xcmd core id).getD c)).ends core c.from_ false e).refusedAt core stop))

/-- R258, R322-R346: the copy engine. -/
def Obligations.CopyEngine : Prop := Claims.CopiesQueued ∧ Claims.CopiesAwaited ∧ Claims.CopyEvents

/-- R347, R348: each bank transform reads the elements of its range, writes what its rule gives each of them, counting the
events, and goes on. -/
def Obligations.BankTransforms : Prop :=
  ∀ (x : Ext) (e : Nat), tileOf x.od = some e →
    ∀ (i : Instr) (oa : Bool) (block : Nat) (types : Bool) (f : Word → Rm → List Nat → List Out), (i, oa, block, types, f) ∈ [
      (Instr.bxfFill x, true, 1, wholeType x.et, fun a _ cs => cs.map fun _ => ⟨a.toNat % 2 ^ elemStorage x.et, 0⟩),
      (.bxfScale x, true, 1, scaledType x.et, fun a rm cs => cs.map fun c =>
        convert x.et rm false (x.imm.getLsbD 3) (FVal.mul (elemValue x.et 0 c) (fp32.decode (a.toNat % 2 ^ 32)))),
      (.bxfAddc x, true, 1, scaledType x.et, fun a rm cs => cs.map fun c =>
        convert x.et rm false (x.imm.getLsbD 3) (FVal.add (rm == .rdn) (elemValue x.et 0 c) (fp32.decode (a.toNat % 2 ^ 32)))),
      (.bxfConv x, false, 1, convTypes x.et (Fmt.ofCode (x.imm.extractLsb' 8 4)), fun _ rm cs => cs.map fun c =>
        convert (Fmt.ofCode (x.imm.extractLsb' 8 4)) rm false (x.imm.getLsbD 3) (elemValue x.et 0 c)),
      (.bxfTrans x, false, 128 * elemStorage x.et, wholeType x.et, fun _ _ cs =>
        (List.range cs.length).map fun n => ⟨cs.getD (n / 1024 * 1024 + n % 32 * 32 + n % 1024 / 32) 0, 0⟩)] →
    ∀ (s t u v w y : State) (a r : Word) (off len : Nat) (bs : List Byte), types = true →
      s.Issues (specChecks ((if oa then [x.oa] else []) ++ [x.ob]) []) (scalarsOf ((if oa then [x.oa] else []) ++ [x.ob])) .drain t →
      t.twiceCheck (linksOf (scalarsOf ((if oa then [x.oa] else []) ++ [x.ob]))) = .ok () →
      (if oa then t.readS (opdOf x.oa) else .ok (0, t)) = .ok (a, u) → u.readS (opdOf x.ob) = .ok (r, v) →
      off = field r 0 19 → len = field r 32 19 → off % 128 = 0 → len % 128 = 0 → len ≠ 0 → len % block = 0 →
      v.tileReady e = .ok () → off + len ≤ v.tileLen (v.tteHome v.coreId e) → v.rangeRead (v.tteHome v.coreId e) off len = .ok (bs, w) →
      let outs := f a (modeOf x.ro none w.slot.status) (unpackCodes x.et (len * 8 / elemStorage x.et) bs)
      w.rangeWrite (w.tileKey (v.tteHome v.coreId e) off) (wordsOfBytes (packCodes x.et (outs.map (·.code)))) = .ok y →
      exec i s = .next (((y.bankWrites w.seq).countEvents (outs.map (·.ev))).advance 12).completed

/-! ### Traffic and kernels (R190-R207, R225, R228, R365) -/

/-- R197, R228: a message whose turn in its lane has come, for a kernel that has not ended, is stamped and present at its
core while there is room; one that stands in the overflow region is written there (R193), and one that does not makes no write; where the
kernel's stop has been it is removed. -/
def Sys2Proof.Claims.MessageArrives : Prop :=
  ∀ (s : State) (i kid c d ident : Nat) (m : Message) (k : Kernel), s.flight[i]? = some (.message kid c ident d m) →
    s.mayArrive i = true → s.live kid = some k →
    (((s.coreAt d).of k.kid).stopSeen = false → (s.coreAt d).hasRoom = true →
      exec (.messageArrival i) s
        = .next (((s.landed i).setCore d (((s.landed i).coreAt d).insert s.timeBase m)).spilled d ((s.landed i).coreAt d).stamp))
    ∧ (((s.coreAt d).of k.kid).stopSeen = true → k.kid = kid →
      exec (.messageArrival i) s = .next ((s.landed i).setKernel (k.removes ((k.vcoreOf d).getD 0) [m])))
    ∧ ∀ (t : State) (n : Nat), ((t.coreAt d).heap.find? fun q => q.stamp == n && q.overflow) = none → t.spilled d n = t

/-- R193: an insertion stamps its message with the core's stamp, which then rises by 1, and leaves the others. -/
def Sys2Proof.Claims.InsertionStamps : Prop :=
  ∀ (k : Core) (now : Nat) (m : Message),
    (k.insert now m).stamp = k.stamp + 1 ∧ (∀ n, n ∈ k.heap → n ∈ (k.insert now m).heap)
    ∧ ∃ n, n ∈ (k.insert now m).heap ∧ n.stamp = k.stamp ∧ n.msg = m ∧ n.since = now

/-- R198, R205, R207, R233, R235: a gain update, a spawn offer, its answer and a key update reach their targets. -/
def Sys2Proof.Claims.OtherTrafficArrives : Prop :=
  ∀ (s : State) (i : Nat),
    (∀ (kid c ident d : Nat) (key : BitVec 16) (delta : BitVec 32) (k : Kernel), s.flight[i]? = some (.gain kid c ident d key delta) →
      s.mayArrive i = true → s.live kid = some k → (s.coreAt d).hasRoom = true →
      exec (.gainUpdateArrival i) s = .next ((s.landed i).gainLands k d key.toNat delta.toNat))
    ∧ (∀ (kid c ident d level : Nat) (pc h : Word) (args : List Word), s.flight[i]? = some (.offer kid c ident d pc args h level) →
      s.mayArrive i = true →
      (s.live kid = none → exec (.spawnOfferArrival i) s = .next ((s.landed i).fly (.answer kid d c ident false)))
      ∧ (∀ n, (s.live kid).isSome = true → ((s.coreAt d).of kid).stopSeen = false → s.idleSlots kid d = [n] →
        exec (.spawnOfferArrival i) s = .next (((s.landed i).drew.startIn d n pc args h level).fly (.answer kid d c ident true))))
    ∧ (∀ (kid d c ident : Nat) (took : Bool), s.flight[i]? = some (.answer kid d c ident took) → s.mayArrive i = true →
      exec (.spawnAnswer i) s = .next ((s.landed i).mapContext c ident (Sys2Proof.Machine.Slot.answered took)))
    ∧ (∀ (kid c d bin boff : Nat) (op : BinOp) (v : Word) (bar : Option Nat) (k : Kernel),
      s.flight[i]? = some (.keyUpdate kid c d bin boff op v bar) → s.mayArrive i = true → (s.landed i).live kid = some k →
      (s.landed i).inImage d (boff + 8 * bin) op.width = false →
      exec (.keyUpdateArrival i) s
        = .next (((s.landed i).applyUpdate kid d (boff + 8 * bin) op v bar).updateLeaves kid bar))

/-- R207: a key update changes its bin by its operation, and no other byte of memory. -/
def Sys2Proof.Claims.KeyUpdateChangesItsBin : Prop :=
  ∀ (s : State) (kid core off : Nat) (op : BinOp) (v : Word) (bar : Option Nat), Memory.wf s.mem = true → s.flips = [] →
    Memory.bytes (s.applyUpdate kid core off op v bar).mem (spKey core off) op.width
        = toBytes op.width (op.apply (BitVec.ofNat 64 (ofBytes (Memory.bytes s.mem (spKey core off) op.width))) v).toNat
    ∧ ∀ k, k < spKey core off ∨ spKey core off + op.width ≤ k →
        Memory.get (s.applyUpdate kid core off op v bar).mem k = Memory.get s.mem k

/-- R189, R192: the heap pops the message that is first for an IDLE slot: it leaves the heap and its activation starts
with P1-P7 in w1-w7, its handler's address in the PC and UP = 0, and nothing else of the slot's registers changes; a zero
handler is counted and starts nothing. R222: the activation's level is the message's. The message meets no uncorrectable error as it is
read (R367). -/
def Sys2Proof.Claims.HeapPops : Prop :=
  ∀ (s r : State) (c n : Nat) (k : Kernel) (m : HeapMsg), (s.slotAt c n).st = .idle → s.live (s.slotAt c n).par.kid = some k →
    ((s.coreAt c).of k.kid).stopSeen = false → s.popWaits k = false → firstOf ((s.coreAt c).ofTag k.tag) = some m →
    s.regionRead c m = (true, r) →
    let t := r.setCore c { s.coreAt c with heap := (s.coreAt c).heap.filter fun q => q.stamp != m.stamp }
    (k.handlers.getD (hdrHid m.msg.header) 0 ≠ 0 → exec (.heapPop c n) s = .next (t.startIn c n
      (k.handlers.getD (hdrHid m.msg.header) 0) m.msg.p.toList m.msg.header
      (min 3 (k.prio + max m.raised ((s.timeBase - m.since) / Config.agingLimit)))))
    ∧ (k.handlers.getD (hdrHid m.msg.header) 0 = 0 → exec (.heapPop c n) s = .next (t.setKernel k.drops))
    ∧ ∀ (x : Slot) (pc h : Word) (args : List Word) (l a y : Nat), args.length = 7 →
      (x.activate pc args h l a y).pc = pc ∧ up (x.activate pc args h l a y).status = false
      ∧ (x.activate pc args h l a y).st = .active ∧ (x.activate pc args h l a y).v = x.v
      ∧ (∀ i : Fin 24, (x.activate pc args h l a y).w[i] = if 1 ≤ i.val ∧ i.val ≤ 7 then args.getD (i.val - 1) 0 else x.w[i])

/-- R193: the message that is first in heap order: gains that are not NaN come before NaN ones, no larger gain comes after a
smaller one, and of messages that the gains do not order the one with the earliest stamp comes first. -/
def Sys2Proof.Claims.FirstIsFirst : Prop :=
  ∀ (ms : List HeapMsg) (m : HeapMsg), firstOf ms = some m →
    m ∈ ms ∧ (∀ n, n ∈ ms → isNan32 (hdrGain n.msg.header) = false → isNan32 (hdrGain m.msg.header) = false ∧
      ((fp32.decode (hdrGain m.msg.header)).lt (fp32.decode (hdrGain n.msg.header))) = false)
    ∧ (∀ n, n ∈ ms → isNan32 (hdrGain n.msg.header) = true → isNan32 (hdrGain m.msg.header) = true → m.stamp ≤ n.stamp)
    ∧ (∀ n, n ∈ ms → isNan32 (hdrGain n.msg.header) = false → isNan32 (hdrGain m.msg.header) = false →
      ((fp32.decode (hdrGain n.msg.header)).lt (fp32.decode (hdrGain m.msg.header))) = false → m.stamp ≤ n.stamp)

/-- R200, R201: a round that is due is gathered, and stops the kernel where its total meets tolerance; a stop that reaches
a core, and the final gather of a kernel that may end, once no earlier event of its queue waits (R218) and the stagehands' accesses
do not (R385, R395). Both gathers wait while a link on a report's way retrains (R395; that reports go to the control die is log 49). -/
def Sys2Proof.Claims.RoundsAndEnds : Prop :=
  ∀ (s : State) (kid : Nat) (k : Kernel), s.live kid = some k →
    (s.roundDue k = true → s.gatherUse k = .passes → (s.gathered k).meets = false →
      exec (.roundGather kid) s = .next ((s.marked k).setKernel { s.gathered k with stopping := false, tolMet := false }))
    ∧ (s.roundDue k = true → s.gatherUse k = .passes → (s.gathered k).meets = true →
      let t := (s.marked k).setKernel { s.gathered k with stopping := true, tolMet := true }
      exec (.roundGather kid) s = .next { t with flight := t.flight ++ k.cores.map fun c => .stop kid c })
    ∧ (∀ c i, s.flight.findIdx? (· == .stop kid c) = some i → s.mayArrive i = true → exec (.stopArrival kid c) s = .next ((s.landed i).stopsOn k c))
    ∧ (s.mayEnd k = true → s.queueClear k.desc = true → s.reportFree [kid] = true → s.gatherUse k = .passes →
      exec (.finalGather kid) s = .next (s.finish (s.gathered k) (if k.tolMet then 1 else 2) 0))
    ∧ (s.gatherUse k = .waits → exec (.roundGather kid) s = .next s ∧ exec (.finalGather kid) s = .next s)
    ∧ (s.gathered k).rounds = k.rounds + 1

/-- R196, R222: a message moves between the heap and its overflow region, where the access of that meets no uncorrectable error (R367), and
its level rises at its aging limit: both events complete. -/
def Sys2Proof.Claims.HeapUpkeep : Prop :=
  ∀ (s : State) (c stamp : Nat) (out : Bool),
    (∀ m r, (s.coreAt c).heap.find? (fun m => m.stamp == stamp && m.overflow != out) = some m →
      (if out then s.regionWrite c m else s.regionRead c m) = (true, r) →
      ((s.coreAt c).heap.filter fun m => m.overflow == out).length < (if out then Config.heapOverflow else Config.heapOnChip) →
      exec (.overflowRegionMove c stamp out) s = .next (r.setCore c { s.coreAt c with
        heap := (s.coreAt c).heap.map fun m => if m.stamp = stamp then { m with overflow := out, spoilt := none } else m }))
    ∧ ((s.coreAt c).heap.find? (fun m => m.stamp == stamp && m.overflow != out) = none → exec (.overflowRegionMove c stamp out) s = .next s)
    ∧ exec (.agingLimit c stamp) s = .next (s.setCore c { s.coreAt c with heap := (s.coreAt c).heap.map fun m =>
        if m.stamp = stamp ∧ m.since + (m.raised + 1) * Config.agingLimit ≤ s.timeBase then { m with raised := m.raised + 1 } else m })

/-- R225, R365: the dependency-deadlock event completes for a cycle of the wait-for graph and faults the kernels on it with 0x0C01; the stagehands answer a stop report
by faulting its kernel with the original cause where there is one, those of one user queue in their order; the stagehands'
accesses wait for no page home and no route (R385, R395). -/
def Sys2Proof.Claims.KernelsFault : Prop :=
  (∀ (s : State) (k : Nat) (ks : List Nat), s.chain k (k :: ks) = true → s.reportFree (s.onCycle k) = true →
    exec (.dependencyDeadlock (k :: ks)) s = .next (s.faultAll (s.onCycle k) 0x0C01))
  ∧ (∀ (s : State) (i : Nat) (r : StopReport), s.events[i]? = some (.stop r) → s.firstStop i r = true → s.reportFree [r.kid] = true →
    exec (.kernelFault (r.kid / 1024 % 4) i) s
      = .next (({ s with events := s.events.eraseIdx i } : State).faulted r.kid (if r.orig = 0 then r.cause else r.orig)))

/-- R190-R207, R228, R233, R235: what travels arrives. -/
def Obligations.TrafficArrives : Prop :=
  Claims.MessageArrives ∧ Claims.InsertionStamps ∧ Claims.OtherTrafficArrives ∧ Claims.KeyUpdateChangesItsBin

/-- R189, R192-R202, R222, R225, R365: pops, rounds, ends and faults. -/
def Obligations.KernelsRunAndEnd : Prop :=
  Claims.HeapPops ∧ Claims.FirstIsFirst ∧ Claims.RoundsAndEnds ∧ Claims.HeapUpkeep ∧ Claims.KernelsFault

/-! ### Launching and binding (R214-R224, R362, R393) -/

/-- R216, R217, R218, R221, R393: a notify is delivered to the queue that its register serves; a queue is mapped and unmapped,
once no earlier event of it waits, where the stagehands can read its words, where its page now lies (R387) (that they act on an event at once, and only where
nothing makes them wait, is the model's reading: log 18, DEDUCED). -/
def Sys2Proof.Claims.QueuesMapped : Prop :=
  ∀ (s : State) (p h : Nat), h < 256 →
    (∀ v, p < 4 → exec (.notify p h v) s = .next (s.deliver p h v))
    ∧ (∀ q, (s.ctlAt p).queueAt h = some q → q.mapped = true → s.queueClear q.desc = true →
      exec (.queueUnmap p h) s = .next (s.setCtl p { s.ctlAt p with queues := assocSet h { q with mapped := false } (s.ctlAt p).queues }))
    ∧ (∀ at_ d, p < 4 → d = s.forwarded at_ → d % 128 = 0 → ((s.ctlAt p).queueAt h = none ∨ ∃ q, (s.ctlAt p).queueAt h = some q ∧ q.mapped = false) →
      s.queueMapped d = false → s.queueClear d = true → s.stageFree p (s.queueStretches d) = true →
      (∀ u, s.queueScan p d = (false, u) → exec (.queueMap p h at_) s = .next u)
      ∧ ∀ u, s.queueScan p d = (true, u) →
        let t : State := { u with ctls := u.ctls.map fun (c : Nat × Ctl) => (c.1, c.2.retire d (if c.1 = p then some h else none)) }
        let q : HwQueue := { desc := d, mapped := true, seen := max (u.shadowOf d) (u.seenBefore d), next := u.nextItem d }
        let v := (t.setCtl p { t.ctlAt p with queues := assocSet h q (t.ctlAt p).queues }).refreshQueue p d
        exec (.queueMap p h at_) s
          = .next (if (v.stageWord (d + 0x20)).getLsbD 63 then v.stageStore p 0 (d + 0x20) (toBytes 8 (u.shadowOf d)) none else v))

/-- R71, R215, R217, R219: the next item of a ready queue, with no ready queue ahead of it (one of a higher level, or one of its
level that is nearer after the slot served last there), is accepted as planned where no
refusal applies, and otherwise refused with the lowest code that does, once no earlier event of the queue waits (R218), and where
the stagehands can read its words and those of the item that PRED names; a queue whose words meet a machine check is not ahead
(R367; the model's reading, DEDUCED, log 18); the codes of R215 in their order. -/
def Sys2Proof.Claims.ItemsTaken : Prop :=
  (∀ (r f s g : State) (p h : Nat) (plan : LaunchPlan) (q : HwQueue) (os : List (Nat × HwQueue)),
    (r.ctlAt p).queueAt h = some q → r.queueReady q = true → r.queueClear q.desc = true →
    r.stageFree p ((r.queueSlot q.desc q.next, 256) :: r.queueStretches q.desc) = true → r.reportFree [] = true →
    (r.otherQueues p h).all (fun o => r.stageFree p (r.headStretches o.2)) = true →
    r.stageScan p 0 [(q.desc, 128), (r.queueSlot q.desc q.next, 256)] = (true, f) → f.contenders p (f.otherQueues p h) = (os, s) →
    os.any (s.queueAhead (r.ctlAt p) (r.queueLevel q.desc) h) = false →
    let a := s.queueSlot q.desc q.next
    let x := ((s.sawBefore (.stagehand p) (a + 0xC0) 8 s.seq).acquire (.stagehand p) .sys).stageRecord p a 16
    let w := x.1
    let ks := s.predStretches (s.refusalCode p w (r.queueLevel q.desc) plan.handlers) (w.getD 12 0)
    s.stageFree p ks = true → x.2.stageScan p 0 ks = (true, g) →
    let t := g.setCtl p ((g.ctlAt p).serves h (r.queueLevel q.desc) q)
    (s.refusalCode p w (r.queueLevel q.desc) plan.handlers ≠ 0 →
      exec (.launchAccept p h plan) r = .next (t.refuses p q.desc a (s.refusalCode p w (r.queueLevel q.desc) plan.handlers)))
    ∧ (s.refusalCode p w (r.queueLevel q.desc) plan.handlers = 0 → s.planOk p plan w = true →
      exec (.launchAccept p h plan) r = .next (t.accepts p q.desc a plan w)))
  ∧ (∀ (s : State) (p : Nat) (r hs : List Word) (level : Nat),
    (recordOk r = false → s.refusalCode p r level hs = 1)
    ∧ (recordOk r = true → s.placeable p (field (r.getD 2 0) 0 16) (field (r.getD 2 0) 16 16) = false → s.refusalCode p r level hs = 2)
    ∧ (recordOk r = true → s.placeable p (field (r.getD 2 0) 0 16) (field (r.getD 2 0) 16 16) = true → level < field (r.getD 13 0) 32 2 →
        s.refusalCode p r level hs = 3)
    ∧ (recordOk r = true → s.placeable p (field (r.getD 2 0) 0 16) (field (r.getD 2 0) 16 16) = true → field (r.getD 13 0) 32 2 ≤ level →
        r.getD 12 0 ≠ 0 → s.acceptedAt (r.getD 12 0).toNat = none → s.pendingAt (r.getD 12 0).toNat = false → s.refusalCode p r level hs = 4)
    ∧ (recordOk r = true → s.placeable p (field (r.getD 2 0) 0 16) (field (r.getD 2 0) 16 16) = true → field (r.getD 13 0) 32 2 ≤ level →
        r.getD 12 0 = 0 → r.getD 1 0 ∉ hs → s.refusalCode p r level hs = 5))

/-- R187, R219, R220, R362: the slot table holds a bind record that is written; one that names a bound workspace is reported,
whatever its slot is; one for an UNBOUND slot binds it, and the stagehands write none that could not be acted on; a request to
unbind, and its being taken: an IDLE slot is saved in its workspace and unbound at once, and a watchdog count that has reached its
limit expires first. -/
def Sys2Proof.Claims.SlotsBound : Prop :=
  (∀ (s : State) (c n : Nat) (rec_ : Word) (regs : BindRegs) (k : Kernel), rec_.getLsbD 63 = true → c < 18432 → n < 16 →
    (s.ctlAt (pkgOf c)).released = true → bindWp rec_ ≤ 0x5F000 →
    let t := s.putBind c n (rec_ &&& 0x800FFFFFFC07F001)
    ((s.boundWs c).contains (bindWp rec_) = true → exec (.bindRecordWrite c n rec_ regs) s = .next (t.emit (.bindRefused c n)))
    ∧ ((s.boundWs c).contains (bindWp rec_) = false → (s.slotAt c n).st ≠ .unbound → exec (.bindRecordWrite c n rec_ regs) s = .next t)
    ∧ ((s.boundWs c).contains (bindWp rec_) = false → (s.slotAt c n).st = .unbound → s.kernelOfTag (pkgOf c) (bindTag rec_) = some k →
      s.mayStart k = true → s.outbid k c = false → k.coreOf (bindVcore rec_) = some c → s.canBind k c (bindWp rec_) (bindPark rec_) = true →
      exec (.bindRecordWrite c n rec_ regs) s = .next (t.binds k c n (bindWp rec_) (bindVcore rec_) (some regs)))
    ∧ ((s.boundWs c).contains (bindWp rec_) = false → (s.slotAt c n).st = .unbound → s.kernelOfTag (pkgOf c) (bindTag rec_) = some k →
      (s.mayStart k = false ∨ s.outbid k c = true ∨ s.canBind k c (bindWp rec_) (bindPark rec_) = false) →
      exec (.bindRecordWrite c n rec_ regs) s = .next s))
  ∧ (∀ (s : State) (c n : Nat),
    ((s.slotAt c n).st = .idle → exec (.unbindRequest c n) s = .next (((s.clearBind c n).askUnbind c n).unbindNow c n))
    ∧ (((s.slotAt c n).st = .active ∨ (s.slotAt c n).st = .waiting) →
      exec (.unbindRequest c n) s = .next ((s.clearBind c n).askUnbind c n))
    ∧ let t := s.focusOn c n
      (t.slot.par.unbind = true → t.wdDue = true → exec (.preemption c n) s = .next (t.expire.focusOn s.coreId s.slotId))
      ∧ (∀ u, t.slot.par.unbind = true → t.wdDue = false → t.takeUnbind = some u →
        exec (.preemption c n) s = .next (u.focusOn s.coreId s.slotId)))
  ∧ (∀ (s : State), s.slot.st = .idle → s.slot.par.alarm = none →
    let t := s.switchOut
    s.takeUnbind = some (({ t with slot := t.slot.unbound, core := t.core.freeClaim t.slotId } : State).emit
      (.unbound t.coreId t.slotId false)))

/-- R222, R223: a parked context whose wake is there, or what it waits for, is rebound in a free slot of its core, by a record that
the stagehands write, where no kernel's turn comes before its own; a context that has waited past its
kernel's limit, the oldest of those, is asked to unbind. -/
def Sys2Proof.Claims.WaitingContexts : Prop :=
  (∀ (s : State) (c n wp : Nat) (x : Slot) (k : Kernel), (s.coreAt c).parkedAt wp = some x → n < 16 →
    (x.par.wake = true ∨ x.par.woke = true ∨ x.par.met = true) → (s.slotAt c n).st = .unbound →
    (s.boundWs c).contains wp = false → s.live x.par.kid = some k → s.sharesSpace c k = true → s.outbid k c = false →
    exec (.parkedRebind c n wp) s = .next ((s.putBind c n (parkRecord x)).binds k c n wp x.vcore.toNat none))
  ∧ (∀ (s : State) (c n : Nat), (∀ y ∈ s.slotsOf c, y.st = .active ∨ y.st = .waiting) →
    ((s.slotsOf c).filter fun y => y.par.unbind).length < (s.unserved c).length → s.overdue (s.slotAt c n) = true →
    (∀ y ∈ s.slotsOf c, s.overdue y = true → (s.slotAt c n).par.waitFrom ≤ y.par.waitFrom) →
    exec (.waitLimit c n) s = .next (((s.clearBind c n).askUnbind c n).unbindNow c n))

/-- R33, R43, R132, R365, R406: the events of a context of its own: a stream deadlock, the watchdog's expiry, its resume,
a wait's deadline, and an alarm. A member of a gang stops at its next instruction of the gang's stream (R210). -/
def Sys2Proof.Claims.ContextEvents : Prop :=
  (∀ (s : State) (c n : Nat), let t := s.focusOn c n
    ((t.slot.st = .active ∨ t.slot.st = .waiting) → t.slot.par.stalled = true →
      (t.vectorTry = .empty ∨ ∃ k, t.vectorTry = .blocked (.queue k)) →
      exec (.streamDeadlock c n) s = .next ((t.deadlock.disbanding t).focusOn s.coreId s.slotId))
    ∧ (t.wdDue = true → (t.maySwitch = true ∨ t.towardSwitch = none) → exec (.watchdogExpiry c n) s = .next (State.focusOn
        (((((t.inStep).count 15 1).stopAt 0x0F02 0 0 0 t.inStep.slot.here none).leaveGang t.coreId t.slotId).settleGangs) s.coreId s.slotId)))
  ∧ (∀ (s : State) (c n i : Nat) (r : StopReport), (s.slotAt c n).st = .stopped → (s.slotAt c n).par.stopped = 0x0F02 →
    s.events.findIdx? (fun e => (expiryOf c n e).isSome) = some i → s.events[i]? = some (.stop r) → s.firstStop i r = true →
    exec (.contextResume c n) s = .next (({ s with events := s.events.eraseIdx i } : State).within c n fun s =>
      State.switchIn { s with slot := { s.slot with st := .active, par := { s.slot.par with stopped := 0, issues := false, wd := s.cycle } } }))
  ∧ (∀ (s : State) (c n : Nat) (k : SOpd) (d : Word) (x : Slot), x = (s.slotAt c n).rung s.timeBase s.cycle → (s.slotAt c n).st = .waiting →
    (s.slotAt c n).par.waiting = some (d, k) → d.toNat ≤ s.timeBase →
    (x.st = .waiting → exec (.waitDeadline c n) s = .next (s.setSlot c n { x with st := .active, par := { x.par with wd := s.cycle, timedOut := true } }))
    ∧ (x.st ≠ .waiting → exec (.waitDeadline c n) s = .next (s.setSlot c n x)))
  ∧ (∀ (s : State) (c n : Nat) (a : Alarm), (s.slotAt c n).par.alarm = some a → a.deadline.toNat ≤ s.timeBase →
    (a.header = 0 → exec (.alarmFires c (.slot n)) s
      = .next (s.setSlot c n (Sys2Proof.Machine.Slot.woken
          { s.slotAt c n with par := { (s.slotAt c n).par with alarm := none } } a.deadline.toNat s.cycle)))
    ∧ (a.header ≠ 0 → s.hasRoomAt c = true → exec (.alarmFires c (.slot n)) s
      = .next ((s.flyAlarm c (s.slotAt c n)).setSlot c n { s.slotAt c n with par := { (s.slotAt c n).par with alarm := none } })))

/-- R214-R221, R393: the user queues. -/
def Obligations.QueuesAndLaunches : Prop := Claims.QueuesMapped ∧ Claims.ItemsTaken

/-- R33, R43, R132, R187, R220, R223, R362, R365, R406: what happens to contexts. -/
def Obligations.ContextsComeAndGo : Prop := Claims.SlotsBound ∧ Claims.WaitingContexts ∧ Claims.ContextEvents

/-! ### Pages (R360, R383, R385-R387, R412) -/

/-- R385: a request to move a page, under MOVCFG: refused with N = 0 and for a page on the die, taken while fewer than N
moves lie in the window, and otherwise shuttered; an entry whose own page has moved is met where it now lies (R387). That the window takes in its first instant is log 32 (DEDUCED). -/
def Sys2Proof.Claims.MovesRequested : Prop :=
  (∀ (s : State) (pte q f die : Nat) (small : Bool), s.leafFrame pte = some (f, small) → q = s.forwarded pte →
    s.leafFrame q = some (f, small) → die < 32 →
    exec (.moveRequest pte die) s = .next (s.setPage
      (((s.pageAt q f small).expired s.timeBase).request (s.ctlAt (f / 2 ^ 50 % 4)).movcfg s.timeBase die)))
  ∧ (∀ (p : PageHome) (cfg : Word) (now die : Nat), p.st = .resident →
    let recent := p.moves.filter fun t => decide (now ≤ t + field cfg 8 28)
    ((field cfg 0 4 = 0 ∨ dieOfAddr p.frame = die) → p.request cfg now die = p)
    ∧ (dieOfAddr p.frame ≠ die → recent.length < field cfg 0 4 → (p.request cfg now die).st = .migrating die)
    ∧ (dieOfAddr p.frame ≠ die → 1 ≤ field cfg 0 4 → field cfg 0 4 ≤ recent.length →
      (p.request cfg now die).st = .shuttered (now + field cfg 36 28)))

/-- R385-R387: a move that completes leaves the page RESIDENT at its new frame, with its queue; one that met an uncorrectable
line is abandoned, and logged; a shutter expires at its time; a redirect notice drops the stale translation. Which frame it
takes, that one for which the die has none goes on, and that one whose entry names the page no longer or whose acts meet a machine
check is given up, are the model's choice (log 15), and so is that the turn may also complete over an uncorrectable line (log 32). -/
def Sys2Proof.Claims.MovesEnd : Prop :=
  (∀ (s : State) (pte die : Nat) (p : PageHome), s.pages.find? (fun p => p.pte == pte && p.moving) = some p → p.st = .migrating die →
    (s.leafFrame pte ≠ some (p.frame, p.small) → exec (.moveComplete pte) s = .next (s.setPage { p with st := .resident }))
    ∧ (s.leafFrame pte = some (p.frame, p.small) →
      (s.newFrame die (pageSize p.small) = none → exec (.moveComplete pte) s = .next s)
      ∧ (∀ g m, s.newFrame die (pageSize p.small) = some g → s.drew.moveActs pte p.frame g (pageSize p.small) = .error (.trap m) →
        exec (.moveComplete pte) s = .next ((s.reportCheck 0 (g / 2 ^ 50 % 4 * 4608) m).setPage { p with st := .resident }))
      ∧ ∀ g t, s.newFrame die (pageSize p.small) = some g → s.drew.moveActs pte p.frame g (pageSize p.small) = .ok t →
        exec (.moveComplete pte) s = .next ((t.moveFrame p.frame g p.small).rehome { p.movedTo g with frame := p.frame } (p.movedTo g))
        ∧ (p.movedTo g).frame = g ∧ (p.movedTo g).st = .resident ∧ (p.movedTo g).moves = p.moves
        ∧ (p.movedTo g).queue = p.queue.map (PageReq.moved p.frame g (pageSize p.small))))
  ∧ (∀ (s : State) (pte f die : Nat) (small : Bool), s.leafFrame pte = some (f, small) → (s.pageAt pte f small).st = .migrating die →
    ∀ b, s.flips.find? (fun b => b.fatal && f ≤ b.word * 8 && b.word * 8 < f + pageSize small) = some b →
      exec (.moveAbandoned pte) s = .next ((s.logError b.array (if b.array.kind = 5 then 5 else 2) (reportAddr (b.word * 8))
        (dieOfAddr f * 576) 15 0).setPage { s.pageAt pte f small with st := .resident }))
  ∧ (∀ (s : State) (pte : Nat), exec (.shutterExpiry pte) s
    = .next { s with pages := s.pages.map fun p => if p.pte = pte then p.expired s.timeBase else p })
  ∧ (∀ (s : State) (c va : Nat), ∃ t, exec (.redirectNotice c va) s = .next t
    ∧ (t.coreAt c).tlb = (s.coreAt c).tlb.filter fun e =>
        !(e.hits ((s.coreAt c).aspace.extractLsb' 52 12) va && s.redirects.any fun r => r.frame == e.frame && r.small == e.small))

/-- R386: a frame's bytes are at their new frame after a move, and no byte outside the two frames changes. -/
def Sys2Proof.Claims.MovedBytes : Prop :=
  ∀ (s : State) (old new : Nat) (small : Bool), let n := pageSize small
    Memory.wf s.mem = true → (old + n ≤ new ∨ new + n ≤ old) →
    (∀ i, i < n → Memory.get (s.moveFrame old new small).mem (new + i) = Memory.get s.mem (old + i))
    ∧ ∀ k, (k < new ∨ new + n ≤ k) → (k < old ∨ old + n ≤ k) → Memory.get (s.moveFrame old new small).mem k = Memory.get s.mem k

/-- R383, R401, R412: a shootdown command is queued with SDVA; while an access of its address space is under way the oldest
does not complete; when it completes, no TLB of a package that `sys` joins to its own holds an entry that it covers, and
SDDONE has risen by 1. -/
def Sys2Proof.Claims.Shootdowns : Prop :=
  ∀ (s : State) (p asid : Nat),
    exec (.shootdownPage p asid) s = .next (s.shoot p 0 asid) ∧ exec (.shootdownSubpage p asid) s = .next (s.shoot p 1 asid)
    ∧ exec (.shootdownAsid p asid) s = .next (s.shoot p 2 asid) ∧ exec (.shootdownAll p) s = .next (s.shoot p 3 0)
    ∧ (p < 4 → ((s.shoot p 0 asid).ctlAt p).shootdowns
        = (s.ctlAt p).shootdowns ++ [{ kind := 0, asid := BitVec.ofNat 12 asid, va := (s.ctlAt p).sdva }])
    ∧ ∀ d ds, p < 4 → (s.ctlAt p).shootdowns = d :: ds →
      (s.reachingOut (fun a => decide (d.kind ≥ 3) || a == d.asid) = true → exec (.shootdownComplete p) s = .next s)
      ∧ (s.reachingOut (fun a => decide (d.kind ≥ 3) || a == d.asid) = false → ∃ t, exec (.shootdownComplete p) s = .next t
        ∧ (t.ctlAt p).shootdowns = ds ∧ (t.ctlAt p).sdDone = (s.ctlAt p).sdDone + 1
        ∧ (s.sysJoins p (pkgOf s.coreId) = true → ∀ e ∈ t.core.tlb, d.covers e = false)
        ∧ (∀ c ∈ t.cores, s.sysJoins p (pkgOf c.1) = true → ∀ e ∈ c.2.tlb, d.covers e = false)
        ∧ ∀ c ∈ t.clusterTlb, s.sysJoins p (c.1 / 288) = true → ∀ e ∈ c.2, d.covers e = false)

/-- R360, R382: a completion notice for a page-fault slot with V = 1 sets DONE, and REFUSED where it refuses, in it and in every
slot of the cluster that faulted on the same page, and wakes the context that the slot is for. -/
def Sys2Proof.Claims.PagesResolved : Prop :=
  ∀ (s : State) (c : Nat) (n : Fin 16) (refused : Bool), c < 18432 → ((s.coreAt c).pfe[n]).getLsbD 63 = true →
    ∃ t, exec (.completionNotice c n.val refused) s = .next t
      ∧ (t.coreAt c).pfe[n] = setBit (setBit ((s.coreAt c).pfe[n]) 62 true) 61 (((s.coreAt c).pfe[n]).getLsbD 61 || refused)
      ∧ (∀ (d : Nat) (m : Fin 16), d ∈ clusterCores c → ((s.coreAt d).pfe[m]).getLsbD 63 = true →
        (s.coreAt d).pfePage[m] = (s.coreAt c).pfePage[n] → (s.coreAt d).pfeAsid[m] = (s.coreAt c).pfeAsid[n] → ((t.coreAt d).pfe[m]).getLsbD 62 = true)
      ∧ ∀ k, k < 16 → ((s.slotAt c k).st = .active ∨ (s.slotAt c k).st = .waiting ∨ (s.slotAt c k).st = .stopped) →
        (s.slotAt c k).par.ident = (s.coreAt c).pfeWho[n] →
        (∀ j, j < 16 → (s.slotAt c j).par.ident = (s.coreAt c).pfeWho[n] → j = k) →
        ((t.slotAt c k).par.wake = true ∨ (t.slotAt c k).par.woke = true)

/-- R360, R383-R387, R412: pages. -/
def Obligations.PagesMoveAndTranslationsGo : Prop :=
  Claims.MovesRequested ∧ Claims.MovesEnd ∧ Claims.MovedBytes ∧ Claims.Shootdowns ∧ Claims.PagesResolved

/-! ### The control die (R5, R369, R370, R392, R407, R408, R413, R420) -/

/-- R5, R25, R265, R358, R377, R407, R409, R412, R413: a write to a register without behaviour of its own gives it the
value with its reserved bits zero; one to a register that does not exist changes nothing. -/
def Sys2Proof.Claims.RegistersWritten : Prop :=
  ∀ (s : State) (v : Word) (p c h : Nat), p < 4 → c < 18432 →
    (∃ t, exec (.registerWrite (.sysqIrq p) v) s = .next t ∧ (t.ctlAt p).sysqIrq = v &&& 0x800707FF)
    ∧ (∃ t, exec (.registerWrite (.sdva p) v) s = .next t ∧ (t.ctlAt p).sdva = v &&& 0x00FFFFFFFFFFFC00)
    ∧ (∃ t, exec (.registerWrite (.movCfg p) v) s = .next t ∧ (t.ctlAt p).movcfg = v &&& 0xFFFFFFFFFFFFFF0F)
    ∧ (∃ t, exec (.registerWrite (.fwdCfg p) v) s = .next t ∧ (t.ctlAt p).fwdcfg = v &&& 1)
    ∧ (∃ t, exec (.registerWrite (.wdlim c) v) s = .next t ∧ (t.coreAt c).wdlim = v &&& 0x3F)
    ∧ (∃ t, exec (.registerWrite (.aspace c) v) s = .next t ∧ (t.coreAt c).aspace = v &&& 0xFFFFFFFFFFFFF001)
    ∧ (∃ t, exec (.registerWrite (.irqwin c) v) s = .next t ∧ (t.coreAt c).irqwin = v &&& 0x07FF07FF)
    ∧ (∃ t, exec (.registerWrite (.pfvec c) v) s = .next t ∧ (t.coreAt c).pfvec = v &&& 0x00FFFFFFFFFFFFFC)
    ∧ (h < 8 → ∃ t, exec (.registerWrite (.sysRval p h) v) s = .next t ∧ (t.ctlAt p).sysRval.toList[h]? = some v)
    ∧ (h < 4 → ∃ t, exec (.registerWrite (.rgn c h) v) s = .next t ∧ (t.coreAt c).rgn.toList[h]? = some (v &&& 0x00FFFFFFFFE0003F))
    ∧ (∀ a, Sys2Proof.Machine.ArrayId.exists_ a = true →
      ∃ t, exec (.registerWrite (.injAdr a) v) s = .next t ∧ (t.logAt a).injAdr = v)
    ∧ ∀ r, Sys2Proof.Machine.DieReg.exists_ r = false → exec (.registerWrite r v) s = .next s

/-- R407, R408: SYSQ takes EN alone while EN is 1, and a rise of EN sets SYSQTAIL to SYSQHEAD; a write to SYSRTOK of a
token that a request has gives that request's context the hart's SYSRVAL, where the reply's way there passes traffic (R395; that
way is log 49). -/
def Sys2Proof.Claims.SystemCallRegisters : Prop :=
  ∀ (s : State) (p : Nat) (v : Word),
    ((s.ctlAt p).sysq.getLsbD 0 = true →
      exec (.sysqWrite p v) s = .next (s.setCtl p { s.ctlAt p with sysq := setBit (s.ctlAt p).sysq 0 (v.getLsbD 0) }))
    ∧ ((s.ctlAt p).sysq.getLsbD 0 = false → v.getLsbD 0 = true →
      exec (.sysqWrite p v) s = .next (s.setCtl p { s.ctlAt p with sysq := v &&& 0x000FFFFFFFFFF03F, sysqTail := (s.ctlAt p).sysqHead }))
    ∧ exec (.sysqheadWrite p v) s = .next (s.setCtl p { s.ctlAt p with sysqHead := v })
    ∧ (∀ h, p < 4 → h < 8 → (s.ctlAt p).tokens.contains v = true →
      s.replyUse p v = .passes → exec (.sysrtokWrite p h v) s
      = .next ((s.setCtl p { s.ctlAt p with tokens := (s.ctlAt p).tokens.erase v }).mapSlots (fun c => pkgOf c == p)
        (Sys2Proof.Machine.Slot.replied v ((s.ctlAt p).sysRval.toList.getD h 0))))

/-- R369, R370: a write to an error log's header sets its count and OVF, one to an entry's word sets KIND alone, and one
to INJCTL sets its fields. -/
def Sys2Proof.Claims.ErrorRegisters : Prop :=
  ∀ (s : State) (a : ArrayId) (v : Word) (j : Nat), Sys2Proof.Machine.ArrayId.exists_ a = true →
    exec (.errorLogHeaderWrite a v) s
      = .next (s.setLog a { s.logAt a with header := setField (v &&& 0x1FFFFFFFF) 40 4 (field (s.logAt a).header 40 4) })
    ∧ exec (.injctlWrite a v) s = .next (s.setLog a { s.logAt a with injCtl := v &&& 0xF000000000003FFF })
    ∧ ∃ t, exec (.errorLogEntryWrite a j v) s = .next t ∧ (t.logAt a).header = (s.logAt a).header
      ∧ (∀ i, i ≠ j → (t.logAt a).entries.toList[i]? = (s.logAt a).entries.toList[i]?)
      ∧ ∀ e, (s.logAt a).entries.toList[j]? = some e →
        (t.logAt a).entries.toList[j]? = some (e.1, setField e.2.1 56 8 (field v 56 8), e.2.2)

/-- R420: PWRCTL, the windows of a capped mode and of none, and the thermal cap. -/
def Sys2Proof.Claims.PowerControlled : Prop :=
  ∀ (s : State) (p : Nat) (v : Word) (watts duty : Nat) (met : Bool), watts < 4096 →
    exec (.pwrctlWrite p v) s = .next (s.setCtl p { s.ctlAt p with pwrctl := v &&& 0x0FFF0001 })
    ∧ ((s.ctlAt p).thermal = none → (s.ctlAt p).pwrctl.getLsbD 0 = false → exec (.powerWindow p watts duty met) s
      = .next (s.setCtl p { s.ctlAt p with pwrstat := setBit (setField (setField (s.ctlAt p).pwrstat 32 12 watts) 16 8 100) 0 false }))
    ∧ (∀ cap, (s.ctlAt p).thermal = none → (s.ctlAt p).pwrctl.getLsbD 0 = true →
      cap = max 1000 (min 3200 (field (s.ctlAt p).pwrctl 16 12)) → duty ≤ 100 → (met = true ↔ watts ≤ cap) → (met = true ∨ duty = 0) →
      exec (.powerWindow p watts duty met) s
        = .next (s.setCtl p { s.ctlAt p with pwrstat := setBit (setField (setField (s.ctlAt p).pwrstat 32 12 watts) 16 8 duty) 0 (!met) }))
    ∧ exec (.thermalCap p watts) s = .next (s.setCtl p { s.ctlAt p with
        thermal := some (max 1000 (min 3200 watts)), pwrstat := setBit (s.ctlAt p).pwrstat 1 true })
    ∧ exec (.temperatureFalls p) s = .next (s.setCtl p { s.ctlAt p with thermal := none, pwrstat := setBit (s.ctlAt p).pwrstat 1 false })

/-- R5, R369, R370, R407, R408, R413, R420: the control die. -/
def Obligations.ControlDieRegisters : Prop :=
  Claims.RegistersWritten ∧ Claims.SystemCallRegisters ∧ Claims.ErrorRegisters ∧ Claims.PowerControlled

/-! ### Links, endpoints, boot (R389, R394-R399, R415-R419) -/

/-- R395: a good flit that is expected is acknowledged and its bytes, the next of its sender's, taken; one that was received
before is ignored, and another asks for a replay; the third replay in a row retrains the link. (The bit order of the CRC-32
is the model's, log 21, PRESUMED; no injection of the sender's log is armed for the port.) -/
def Sys2Proof.Claims.FlitsReceived : Prop :=
  ∀ (s : State) (n seq : Nat) (data : List Byte) (crc : BitVec 32), (s.portAt n).st = .up → data.length = 128 →
    armedPort (peerPort n) (s.logAt (portArray (peerPort n))) = false →
    let p := s.portAt n
    let q := s.portAt (peerPort n)
    let m := min 128 q.out.length
    let replay := (s.setPort n { p with replays := p.replays + 1, replayOf := some p.recvSeq }).logPort n 7
    (crc32 data = crc → seq = p.recvSeq → m ≠ 0 → data.take m = q.out.take m →
      let t := s.setPort (peerPort n) { q with out := q.out.drop m, sendSeq := q.sendSeq + 1 }
      exec (.flitReceived n seq data crc) s = .next (t.setPort n { t.portAt n with
        recvSeq := (t.portAt n).recvSeq + 1, acked := (t.portAt n).acked + 1, replays := 0, replayOf := none
        stream := (t.portAt n).stream ++ data.take m }))
    ∧ (crc32 data = crc → seq < p.recvSeq → exec (.flitReceived n seq data crc) s = .next s)
    ∧ ((crc32 data ≠ crc ∨ p.recvSeq < seq) → p.replays < 2 → exec (.flitReceived n seq data crc) s = .next replay)
    ∧ ((crc32 data ≠ crc ∨ p.recvSeq < seq) → 2 ≤ p.replays → exec (.flitReceived n seq data crc) s = .next (replay.retrain n))
    ∧ (n < 512 → ((s.retrain n).portAt n).st = .retraining)

/-- R395, R398, R401: initial training and a good retrain bring both ends of a link up with every coder reset; a retrain that
fails is counted and logged at both ends and tried again, and the third in a row takes the link down. -/
def Sys2Proof.Claims.LinksTrain : Prop :=
  ∀ (s : State) (n : Nat),
    let m := max (s.portAt n).retrains (s.portAt (peerPort n)).retrains + 1
    let t := s.setPort n { s.portAt n with retrains := m }
    let u := t.setPort (peerPort n) { t.portAt (peerPort n) with retrains := m }
    (portExists n = true → n < 512 → (s.portAt n).st = .untrained → exec (.linkTrained n) s = .next (s.trained n))
    ∧ ((s.portAt n).st = .retraining → exec (.retrainComplete n true) s = .next (s.trained n)
      ∧ (m < 3 → exec (.retrainComplete n false) s = .next (u.logPort n 8))
      ∧ (3 ≤ m → exec (.retrainComplete n false) s = .next (u.linkTo n .down)))
    ∧ (n < 512 → ∀ e, e = n ∨ e = peerPort n → ((s.trained n).portAt e).st = .up
      ∧ ((s.trained n).portAt e).compressor = Coder.reset ∧ ((s.trained n).portAt e).expander = Coder.reset
      ∧ ((s.linkTo n .down).portAt e).st = .down)

/-- R395-R399: a block that is sent, the oldest that must be sent again where there is one, expands at the other end, with a
coder in the same state, to the block, and leaves the two coders in the same state; a frame that the flits have brought is
delivered; a corrupt one asks for a replay, its sender sends what was not delivered again, the coders of both ends are reset,
and the third in a row retrains the link. That a sender (rewound) sends every undelivered block again is the model's choice (log 49,
DESIGN CHOICE). -/
def Sys2Proof.Claims.FramesCarryBlocks : Prop :=
  (∀ (s : State) (n : Nat) (block tokens : List Byte), (s.portAt n).st = .up → 1 ≤ block.length → block.length ≤ 256 → n < 512 →
    (∀ b, (s.portAt n).resend.head? = some b → b = block) →
    ∃ t f out, exec (.frameSend n block tokens) s = .next t ∧ (t.portAt n).sent = (s.portAt n).sent ++ [f]
      ∧ (s.portAt n).compressor.frame f.1 f.2 = some out ∧ out.map (·.1) = block
      ∧ (t.portAt n).compressor = (s.portAt n).compressor.after out
      ∧ (t.portAt n).out = (s.portAt n).out ++ frameBytes f.1 f.2
      ∧ (t.portAt n).flying = (s.portAt n).flying ++ [block] ∧ (t.portAt n).resend = (s.portAt n).resend.drop 1)
  ∧ (∀ (s : State) (n : Nat) (h : BitVec 32) (payload : List Byte), (s.portAt n).st = .up →
    let p := s.portAt n
    let q := s.portAt (peerPort n)
    (∀ out, p.expander.frame h payload = some out → p.stream.take (frameBytes h payload).length = frameBytes h payload →
      let t := s.setPort (peerPort n) { q with flying := q.flying.drop 1 }
      exec (.frameReceived n h payload) s = .next (t.setPort n { t.portAt n with
        delivered := (t.portAt n).delivered ++ out.map (·.1), expander := (t.portAt n).expander.after out, corrupt := 0
        stream := (t.portAt n).stream.drop (frameBytes h payload).length }))
    ∧ (p.expander.frame h payload = none →
      let t := s.setPort n { p with corrupt := p.corrupt + 1, replayOf := some p.recvSeq, stream := [], expander := Coder.reset }
      let u := (t.setPort (peerPort n) (t.portAt (peerPort n)).rewound).logPort n 7
      (p.corrupt < 2 → exec (.frameReceived n h payload) s = .next u)
      ∧ (2 ≤ p.corrupt → exec (.frameReceived n h payload) s = .next (u.retrain n))))
  ∧ ∀ p : Port, p.rewound.compressor = Coder.reset ∧ p.rewound.resend = p.flying ++ p.resend ∧ p.rewound.out = []

/-- R389, R415, R416: an endpoint's write of at most 512 bytes, where the IOMMU lets it through and it reaches memory, leaves its
bytes there and changes no other; one that the IOMMU does not let through changes nothing; its read changes no byte; its MSI raises an identity; completions reach the context that waits. (Which data a completion
brings is open: log 12, DESIGN CHOICE.) -/
def Sys2Proof.Claims.Endpoints : Prop :=
  (∀ (s : State) (p v a : Nat) (data : List Byte), p < 4 → data.length ≤ 512 → (s.ctlAt p).iommu.through v data.length true = some a →
    s.dieReach (.endpoint p) a data.length = .yes → s.flips = [] → Memory.wf s.mem = true →
    ∃ t, exec (.endpointWrite p v data) s = .next t ∧ Memory.bytes t.mem a data.length = data
      ∧ ∀ k, k < a ∨ a + data.length ≤ k → Memory.get t.mem k = Memory.get s.mem k)
  ∧ (∀ (s : State) (p v n : Nat) (data : List Byte), ((s.ctlAt p).iommu.through v data.length true = none → exec (.endpointWrite p v data) s = .next s)
    ∧ ((s.ctlAt p).iommu.through v n false = none → exec (.endpointMemoryRead p v n) s = .next s)
    ∧ ∃ t, exec (.endpointMemoryRead p v n) s = .next t ∧ t.mem = s.mem)
  ∧ (∀ (s : State) (p h i : Nat), h < 8 → 1 ≤ i → i < 2048 → exec (.endpointMsi p h i) s = .next (s.raise p h i))
  ∧ (∀ (s : State) (c n key : Nat) (data : List Byte), (s.slotAt c n).par.io.waiting = some (key, data.length) →
    exec (.readCompletion c n data) s = .next (s.setSlot c n { s.slotAt c n with par := { (s.slotAt c n).par with
      io := { waiting := none, got := (s.slotAt c n).par.io.got ++ [(key, data)] } } }))
  ∧ (∀ (s : State) (c n key len : Nat) (op : AtomicReq) (b k : Word) (x : Option Word) (good : Bool) (old : Word),
    (s.slotAt c n).par.request = .ioAtomic op key len b k false x →
    exec (.atomicopCompletion c n good old) s = .next (s.setSlot c n { s.slotAt c n with par := { (s.slotAt c n).par with
      request := .ioAtomic op key len b k true (if good then some old else none) } }))

/-- R417-R419: a reset package takes its images in order; an image that passes its checks is counted and its entry held, and
the next follows; one that fails a check is recorded and not run, and the ones after it wait; a recovery image is taken in
the place of one that failed, and only then; the compute dies are released by firmware that runs; a report carries the
nonce and its signature. An event that an image is to do leaves the machine as it is while that image does not run (which image does
which is log 55, DEDUCED). (That the report begins with the nonce, low byte first, is log 22, PRESUMED; when and where a recovery
image is taken, and that the images after it follow, is log 33, DEDUCED.) -/
def Sys2Proof.Claims.PackagesBoot : Prop :=
  ∀ (s : State) (p : Nat), p < 4 →
    (∀ ims, exec (.reset p ims) s = .next ((s.packageReset p).bootAll p ims))
    ∧ (∀ im ims, imageType im = (s.ctlAt p).booted.length + 1 → (s.ctlAt p).booted.length < 3 →
      (∀ n, firstFailing im = some n →
        ((s.bootAll p (im :: ims)).ctlAt p) = { s.ctlAt p with failed := some n, images := ims } ∧ (s.bootAll p (im :: ims)).mem = s.mem)
      ∧ (firstFailing im = none → s.bootAll p (im :: ims) = (s.bootImage p im).bootAll p ims
        ∧ ((s.bootImage p im).ctlAt p).booted = (s.ctlAt p).booted ++ [imageType im]
        ∧ ((s.bootImage p im).ctlAt p).entry = BitVec.ofNat 64 (headerNat im 0x20 8)))
    ∧ (∀ im, (s.ctlAt p).failed.isSome = true → imageType im = (s.ctlAt p).booted.length + 1 →
      exec (.recoveryImage p im) s = .next (s.bootAll p (im :: (s.ctlAt p).images)))
    ∧ (∀ im, (s.ctlAt p).failed = none → exec (.recoveryImage p im) s = .next s)
    ∧ ((s.ctlAt p).booted.contains 1 = true →
      exec (.computeDieRelease p) s = .next (s.setCtl p { s.ctlAt p with released := true }))
    ∧ (∀ (i : Instr) (ts : List Turn) (k : Nat), s.agenda = .event i :: ts → imageFor i = some (p, k) → k ∉ (s.ctlAt p).booted →
      step s = .next ({ s with agenda := ts } : State).settles.tick)
    ∧ (∀ nonce, ∃ t r, exec (.attestationRequest p nonce) s = .next t
      ∧ (t.ctlAt p).reports = (s.ctlAt p).reports ++ [(r, Config.attestationSignature r)] ∧ r.take 48 = toBytes 48 nonce.toNat)

/-- R395-R399: the links. -/
def Obligations.LinksCarryFrames : Prop := Claims.FlitsReceived ∧ Claims.LinksTrain ∧ Claims.FramesCarryBlocks

/-- R389, R415-R419: endpoints and boot. -/
def Obligations.EndpointsAndBoot : Prop := Claims.Endpoints ∧ Claims.PackagesBoot

/-! ### What vector instances write (R20, R142-R146, R156-R159, R166, R170) -/

/-- R20, R142, R156: an integer instance gives each active lane its function of the sources' lanes, modulo 2^w, and leaves
or clears the others; it counts nothing and changes no other register and nothing else. -/
def Obligations.IntegerLanes : Prop :=
  ∀ (t : WType) (e : Entry) (s : State) (d a b : Fin 16), e.x.od = .v (.v d) → e.x.oa = .v (.v a) → e.x.ob = .v (.v b) →
    let w := wBits t
    (∀ (op : VOp) (f : BitVec w → BitVec w → BitVec w), (op, f) ∈ ([
        (VOp.iadd t, fun x y => x + y), (.isub t, fun x y => x - y), (.imul t, fun x y => x * y),
        (.imin t, fun x y => if x.toInt ≤ y.toInt then x else y), (.imax t, fun x y => if x.toInt ≥ y.toInt then x else y),
        (.iand t, fun x y => x &&& y), (.ior t, fun x y => x ||| y), (.ixor t, fun x y => x ^^^ y),
        (.isll t, fun x y => x <<< (y.toNat % w)), (.isrl t, fun x y => x >>> (y.toNat % w))] : List (VOp × (BitVec w → BitVec w → BitVec w))) → e.op = op →
      ∃ u evs, runInstance e s = .ok (u, evs) ∧ (∀ v ∈ evs, v = 0) ∧ u = { s with slot := { s.slot with v := u.slot.v } }
        ∧ (∀ n, n ≠ d → u.slot.v[n] = s.slot.v[n])
        ∧ ∀ i, i < 1024 / w → (u.slot.v[d]).extractLsb' (w * i) w
          = if e.active i then f ((s.slot.v[a]).extractLsb' (w * i) w) ((s.slot.v[b]).extractLsb' (w * i) w)
            else if e.x.z then 0 else (s.slot.v[d]).extractLsb' (w * i) w)
    ∧ (∀ (c : Fin 16) (op : VOp) (f : BitVec w → BitVec w → Nat → BitVec w), (op, f) ∈ ([
        (VOp.ifsl t, fun x y n => ((x ++ y) <<< (n % w)).extractLsb' w w), (.ifsr t, fun x y n => ((x ++ y) >>> (n % w)).extractLsb' 0 w)] : List (VOp × (BitVec w → BitVec w → Nat → BitVec w))) →
      e.op = op → ((e.x.oc = Spec.zero ∧ c = d) ∨ e.x.oc = .v (.v c)) →
      ∃ u evs, runInstance e s = .ok (u, evs) ∧ u = { s with slot := { s.slot with v := u.slot.v } }
        ∧ (∀ n, n ≠ d → u.slot.v[n] = s.slot.v[n])
        ∧ ∀ i, i < 1024 / w → (u.slot.v[d]).extractLsb' (w * i) w
          = if e.active i then f ((s.slot.v[a]).extractLsb' (w * i) w) ((s.slot.v[b]).extractLsb' (w * i) w)
              ((s.slot.v[c]).extractLsb' (w * i) w).toNat
            else if e.x.z then 0 else (s.slot.v[d]).extractLsb' (w * i) w)

/-- R20, R86, R87, R144-R146: a floating-point instance gives each active lane its exact result rounded once under the
mode and FZ, with the events of that lane alone, and leaves or clears the others; abs and neg change the sign bit alone; min and
max give the smaller or the larger operand, -0 below +0 and whatever FZ is, the other operand where one is NaN, and the canonical
NaN where both are. -/
def Obligations.FloatLanes : Prop :=
  ∀ (t : FType) (e : Entry) (s : State) (d a b c : Fin 16), e.x.od = .v (.v d) → e.x.oa = .v (.v a) →
    (e.x.ob = .v (.v b) ∨ e.op = .abs t ∨ e.op = .neg t) →
    ((e.x.oc = Spec.zero ∧ c = d) ∨ e.x.oc = .v (.v c)) →
    let g := fOf t
    let w := g.width
    let lane (v : VReg) (i : Nat) : Nat := (v.extractLsb' (w * i) w).toNat
    let val (x : Nat) : FVal := (g.read e.fz x).1
    let rnd (x : FVal) : Nat := (g.round e.rm e.fz false x).code
    let pick (second : FVal → FVal → Bool) (x y : Nat) : Nat :=
      if (g.decode x).isNan then (if (g.decode y).isNan then g.nanCode else y)
      else if (g.decode y).isNan then x else if second (g.decode x) (g.decode y) then y else x
    ∀ (op : VOp) (f : Nat → Nat → Nat → Nat), (op, f) ∈ [
        (VOp.add t, fun x y _ => rnd ((val x).add (e.rm == .rdn) (val y))),
        (.sub t, fun x y _ => rnd ((val x).add (e.rm == .rdn) (val y).negate)),
        (.mul t, fun x y _ => rnd ((val x).mul (val y))),
        (.fma t, fun x y z => rnd (((val x).mul (val y)).add (e.rm == .rdn) (val z))),
        (.fms t, fun x y z => rnd ((val z).add (e.rm == .rdn) ((val x).mul (val y)).negate)),
        (.abs t, fun x _ _ => x % 2 ^ (w - 1)),
        (.neg t, fun x _ _ => (x + 2 ^ (w - 1)) % 2 ^ w),
        (.min t, fun x y _ => pick (fun u v => v.below u) x y), (.max t, fun x y _ => pick (fun u v => u.below v) x y)] → e.op = op →
      ∃ u evs, runInstance e s = .ok (u, evs) ∧ evs.length = ((List.range (1024 / w)).filter e.active).length
        ∧ u = { s with slot := { s.slot with v := u.slot.v } } ∧ (∀ n, n ≠ d → u.slot.v[n] = s.slot.v[n])
        ∧ ∀ i, i < 1024 / w → lane u.slot.v[d] i
          = if e.active i then f (lane s.slot.v[a] i) (lane s.slot.v[b] i) (lane s.slot.v[c] i) % 2 ^ w
            else if e.x.z then 0 else lane s.slot.v[d] i

/-- R141, R157, R158: a comparison gives bit i of its mask the condition of an active lane i, and the old bit or 0 of
another; the bits past the lanes are 0. It changes no other register and nothing else. -/
def Obligations.CompareMasks : Prop :=
  ∀ (e : Entry) (s : State) (d : Fin 24) (a b : Fin 16), d ≠ 0 → e.x.od = .s (.w d) → e.x.oa = .v (.v a) → e.x.ob = .v (.v b) →
    (∀ (t : FType) (op : VOp) (f : FVal → FVal → Bool), (op, f) ∈ [
        (VOp.eq t, fun x y => !x.isNan && !y.isNan && !x.lt y && !y.lt x), (.lt t, fun x y => x.lt y),
        (.le t, fun x y => !x.isNan && !y.isNan && !y.lt x),
        (.ne t, fun x y => x.isNan || y.isNan || x.lt y || y.lt x), (.uno t, fun x y => x.isNan || y.isNan)] → e.op = op →
      let w := (fOf t).width
      ∃ u, runInstance e s = .ok (u, []) ∧ u = { s with slot := { s.slot with w := u.slot.w } } ∧ (∀ n, n ≠ d → u.slot.w[n] = s.slot.w[n])
        ∧ ∀ i, i < 64 → (u.slot.w[d]).getLsbD i = if i < 1024 / w then
            (if e.active i then f ((fOf t).decode ((s.slot.v[a]).extractLsb' (w * i) w).toNat)
                ((fOf t).decode ((s.slot.v[b]).extractLsb' (w * i) w).toNat)
             else !e.x.z && (s.slot.w[d]).getLsbD i) else false)
    ∧ (∀ (t : WType) (op : VOp) (f : BitVec (wBits t) → BitVec (wBits t) → Bool), (op, f) ∈ [
        (VOp.ieq t, fun x y => x == y), (.ilt t, fun x y => decide (x.toInt < y.toInt))] → e.op = op → t ≠ .b →
      ∃ u, runInstance e s = .ok (u, []) ∧ u = { s with slot := { s.slot with w := u.slot.w } } ∧ (∀ n, n ≠ d → u.slot.w[n] = s.slot.w[n])
        ∧ ∀ i, i < 64 → (u.slot.w[d]).getLsbD i = if i < 1024 / wBits t then
            (if e.active i then f ((s.slot.v[a]).extractLsb' (wBits t * i) (wBits t)) ((s.slot.v[b]).extractLsb' (wBits t * i) (wBits t))
             else !e.x.z && (s.slot.w[d]).getLsbD i) else false)
    ∧ (∀ (o : Fin 24) (op : VOp) (f : BitVec 8 → BitVec 8 → Bool), o.val = d.val + 1 → (op, f) ∈ [
        (VOp.ieq .b, fun x y => x == y), (.ilt .b, fun x y => decide (x.toInt < y.toInt))] → e.op = op →
      ∃ u, runInstance e s = .ok (u, []) ∧ (∀ n, n ≠ d → n ≠ o → u.slot.w[n] = s.slot.w[n])
        ∧ ∀ i, i < 128 → (u.slot.w[o] ++ u.slot.w[d]).getLsbD i
          = if e.active i then f ((s.slot.v[a]).extractLsb' (8 * i) 8) ((s.slot.v[b]).extractLsb' (8 * i) 8)
            else !e.x.z && (s.slot.w[o] ++ s.slot.w[d]).getLsbD i)

/-- R159, R166: what the selecting and the moving instances write: vmov, vsel, vperm and vbcst lane by lane; vins one lane;
vext a scalar register. -/
def Obligations.MovingLanes : Prop :=
  ∀ (t : WType) (e : Entry) (s : State) (d a b : Fin 16), e.x.oa = .v (.v a) ∨ e.op = .bcst t ∨ e.op = .ins t →
    (e.x.ob = .v (.v b) ∨ e.op = .mov ∨ e.op = .bcst t ∨ e.op = .ins t ∨ e.op = .ext t) →
    let lane (w : Nat) (v : VReg) (i : Nat) : Nat := (v.extractLsb' (w * i) w).toNat
    let w := wBits t
    (e.x.od = .v (.v d) →
      ∀ (op : VOp) (n : Nat) (f : Nat → Nat), (op, n, f) ∈ [
        (VOp.mov, 32, fun i => if e.active i then lane 32 s.slot.v[a] i else if e.x.z then 0 else lane 32 s.slot.v[d] i),
        (.sel, wsBits e.x.imm.toNat, fun i => if e.mask.getLsbD i then lane (wsBits e.x.imm.toNat) s.slot.v[a] i
          else lane (wsBits e.x.imm.toNat) s.slot.v[b] i),
        (.perm t, w, fun i => if e.active i then lane w s.slot.v[a] (lane w s.slot.v[b] i % (1024 / w))
          else if e.x.z then 0 else lane w s.slot.v[d] i),
        (.bcst t, w, fun i => if e.active i then e.sa.toNat % 2 ^ w else if e.x.z then 0 else lane w s.slot.v[d] i),
        (.ins t, w, fun i => if i = e.sb.toNat % (1024 / w) then e.sa.toNat % 2 ^ w else lane w s.slot.v[d] i)] → e.op = op →
      ∃ u evs, runInstance e s = .ok (u, evs) ∧ u = { s with slot := { s.slot with v := u.slot.v } }
        ∧ (∀ m, m ≠ d → u.slot.v[m] = s.slot.v[m]) ∧ ∀ i, i < 1024 / n → lane n u.slot.v[d] i = f i)
    ∧ (∀ c : Fin 24, c ≠ 0 → e.op = .ext t → e.x.od = .s (.w c) →
      ∃ u, runInstance e s = .ok (u, []) ∧ u = { s with slot := { s.slot with w := u.slot.w } }
        ∧ (∀ m, m ≠ c → u.slot.w[m] = s.slot.w[m])
        ∧ u.slot.w[c] = BitVec.ofNat 64 (lane w s.slot.v[a] (e.sb.toNat % (1024 / w))))

/-- R169, R170, R251: vld and vst of an address that is not a multiple of 128 trap with 0x0200; in the local window vst
leaves exactly its register's 128 bytes and changes no register, and vld gives the 128 bytes and changes no byte. -/
def Obligations.BlockLoadsAndStores : Prop :=
  ∀ (e : Entry) (s : State) (d : Fin 16) (n : Fin 24) (ea : Word), s.coreId < 18432 → e.x.oa = .s (.w n) → e.x.od = .v (.v d) →
    ea = e.sa + e.x.imm.signExtend 64 →
    (ea.toNat % 128 ≠ 0 → (e.op = .ld ∨ e.op = .st) → runInstance e s = trapAt 0x0200 ea)
    ∧ (∀ off, ea = BitVec.ofNat 64 (0xFFFFFFFFF00000 + off) → off % 128 = 0 → off + 128 ≤ 0x60000 → s.flips = [] →
      s.inImage s.coreId off 128 = false → Memory.wf s.mem = true →
      (e.op = .st → ∃ u, runInstance e s = .ok (u, []) ∧ u.slot = s.slot
        ∧ Memory.bytes u.mem (spKey s.coreId off) 128 = toBytes 128 (s.slot.v[d]).toNat
        ∧ ∀ k, k < spKey s.coreId off ∨ spKey s.coreId off + 128 ≤ k → Memory.get u.mem k = Memory.get s.mem k)
      ∧ (e.op = .ld → s.hist = [] → ∃ u, runInstance e s = .ok (u, []) ∧ u.mem = s.mem ∧ u.slot.w = s.slot.w
        ∧ (∀ m, m ≠ d → u.slot.v[m] = s.slot.v[m])
        ∧ u.slot.v[d] = BitVec.ofNat 1024 (ofBytes (Memory.bytes s.mem (spKey s.coreId off) 128))))

/-! ### Encodings (R45-R62) -/

/-- R45-R59: the decoder reads every well-formed instruction from its own words, with every operand at every value that the
encoding admits. -/
def Obligations.DecodeOfEncode : Prop := ∀ i : Instr, i.wellFormed = true → decode (encode i).list = .ok i

/-- R50, R55, R62: 0x0000_0000, 0xFFFF_FFFF and every word with major 0x3F are undefined encodings; an instruction whose
fields its description refuses is one too, and an extended form with an unused field that is not zero is refused as a
reserved field, unless the same words are those of another well-formed instruction (the modes of `xcopy` and of `bxf`
share theirs). -/
def Sys2Proof.Claims.ReservedEncodingsAreRefused : Prop :=
  decode [0] = .error .undefined ∧ decode [0xFFFFFFFF, 0, 0, 0, 0] = .error .undefined
  ∧ (∀ w a b c d : IWord, w.extractLsb' 2 6 = 0x3F → decode [w, a, b, c, d] = .error .undefined)
  ∧ (∀ i, i.bytes ≠ 0 → (∀ k, i ≠ .vloopRegister k (.w 0)) → i.defined = false → decode (encode i).list = .error .undefined)
  ∧ (∀ i x u, i.extUse = some (x, u) → i.defined = true → x.fits u = false →
    decode (encode i).list = .error .reservedField ∨ ∃ j, j.wellFormed = true ∧ encode j = encode i ∧ decode (encode i).list = .ok j)

/-- Words written out from the encoding tables decode to the instructions that they stand for. -/
def Obligations.WordsDecode : Prop :=
  decode [0x00882500] = .ok (.add (.w 5) (.w 1) (.w 2))
  ∧ decode [0x00002509, 0x9ABCDEF0, 0x12345678] = .ok (.addiLiteral (.w 5) (.w 1) 0x123456789ABCDEF0)
  ∧ decode [0x0000C560] = .ok (.j 0xC5)
  ∧ decode [0x000C41B8] = .ok (.vadd .f32 (.v 1) (.v 2) (.v 3))
  ∧ decode [0x030001E6, 0, 0] = .ok (.tfree (baseExt Spec.zero (.s (.w 3)) Spec.zero))

/-- R62: an undefined encoding takes the trap 0x0100. -/
def Sys2Proof.Claims.UndefinedEncodingTraps : Prop :=
  ∀ s : State, exec .undefinedEncoding s = .next (s.scalarTrap { cause := 0x0100 })

/-! ### Steps, reset and invariants -/

/-- A step with nothing else due runs the instruction that the words at the PC decode to; its request leaves the queue of a
page home, page homes and the tree go on, and time passes (the model's schedule, log 1; log 5), where the context holds its
core's issue slot or goes on waiting without it and has no load whose value is to come (log 7): so does the turn of another
context's slot. -/
def Sys2Proof.Claims.TheHolderRuns : Prop :=
  ∀ (s t : State) (ws : List IWord) (i : Instr),
    ((s.slot.st = .active ∧ s.slot.par.issues = true) ∨ (s.slot.st = .waiting ∧ s.readyAt contextTurn s.slotId = false)) →
    s.gangOf s.coreId s.slotId = none → s.pendingHere = [] →
    s.wdDue = false → s.slot.par.unbind = false → s.fetch = .ok (ws, t) → decode ws = .ok i →
    (∀ u, exec i (t.holding ws) = .next u → s.agenda = [] → step s = .next (u.letThrough s (s.asRequest false)).settles.tick)
    ∧ (∀ r c n ts, r.agenda = Turn.issue c n :: ts → c < 18432 → n < 16 → s = State.focusOn { r with agenda := ts } c n →
      ∀ u, exec i (t.holding ws) = .next u → step r = .next (u.letThrough s (s.asRequest false)).settles.tick)
    ∧ (s.pages = [] → ∀ u : State, u.letThrough s (s.asRequest false) = u)

/-- R42, R222: a context that needs the issue slot takes it where it may and then runs; where it may not, only time
passes. It may where no other context of its core could issue; it may not while another holds the slot, nor while an
ACTIVE one has a higher level. (That contexts change only at yield points is the model's reading, log 47.) -/
def Sys2Proof.Claims.TheIssueSlotIsTaken : Prop :=
  (∀ s : State, s.agenda = [] → s.pendingHere = [] →
    ((s.slot.st = .active ∧ s.slot.par.issues = false) ∨ (s.slot.st = .waiting ∧ s.readyAt contextTurn s.slotId = true)) →
    (s.mayIssue contextTurn = true → step s = ticked (contextTurn s.given))
    ∧ (s.mayIssue contextTurn = false → s.wdDue = false → s.slot.par.unbind = false → step s = .next s.settles.tick))
  ∧ (∀ s : State, (∀ j, j < 16 → j ≠ s.slotId → (s.slotAt s.coreId j).st ≠ .active ∧ (s.slotAt s.coreId j).st ≠ .waiting) →
    s.mayIssue contextTurn = true)
  ∧ (∀ (s : State) (j : Nat), j < 16 → j ≠ s.slotId → (s.slotAt s.coreId j).st = .active →
    ((s.slotAt s.coreId j).par.issues = true ∨ s.slot.par.level < (s.slotAt s.coreId j).par.level) → s.mayIssue contextTurn = false)

/-- What a step runs, and when. -/
def Obligations.StepRunsTheDecodedInstruction : Prop := Claims.TheHolderRuns ∧ Claims.TheIssueSlotIsTaken

/-- R45, R137, R251: with no write outstanding, a fetch in the local window gives the little-endian words of the
scratchpad, as many as the first one's LEN says, and changes nothing. -/
def Obligations.FetchReadsTheWords : Prop :=
  ∀ (s : State) (off : Nat) (w : IWord), s.coreId < 18432 → s.slot.pc = BitVec.ofNat 64 (0xFFFFFFFFF00000 + off) → off % 4 = 0 → s.hist = [] → s.flips = [] →
    w = BitVec.ofNat 32 (ofBytes (Memory.bytes s.mem (spKey s.coreId off) 4)) → off + 4 * wordCount w ≤ 0x60000 →
    s.fetch = .ok ((List.range (wordCount w)).map fun i =>
      BitVec.ofNat 32 (ofBytes (Memory.bytes s.mem (spKey s.coreId (off + 4 * i)) 4)), s)

/-- The values that the spec gives for reset: WDLIM.LOG2 24 (R25), every tile table entry EMPTY and held by itself (R255),
links and the link claim free (R246), SYSQHEAD and SYSQTAIL 1 (R407), MOVCFG (R413), PWRCTL.CAP and PWRSTAT.DUTY (R420),
the measurement registers but MR0 zero (R419), every slot UNBOUND (R187), ports untrained (R401). -/
def Obligations.ResetGivesTheStatedValues : Prop :=
  (∀ c n, (State.reset.slotAt c n).st = .unbound)
  ∧ (∀ c, (State.reset.coreAt c).wdlim = 24 ∧ (State.reset.coreAt c).claim = none
    ∧ (∀ d : Fin 4, (State.reset.coreAt c).links[d] = none)
    ∧ ∀ n : Fin 64, tteSt ((State.reset.coreAt c).tte[n]) = 0 ∧ tteWin ((State.reset.coreAt c).tte[n]) = false
      ∧ tteLen ((State.reset.coreAt c).tte[n]) = 0 ∧ tteOff ((State.reset.coreAt c).tte[n]) = 0)
  ∧ (∀ p, (State.reset.ctlAt p).sysqHead = 1 ∧ (State.reset.ctlAt p).sysqTail = 1 ∧ (State.reset.ctlAt p).sysq.getLsbD 0 = false
    ∧ field (State.reset.ctlAt p).movcfg 0 4 = 4 ∧ field (State.reset.ctlAt p).movcfg 8 28 = 0x186A0
    ∧ field (State.reset.ctlAt p).movcfg 36 28 = 0x186A00 ∧ field (State.reset.ctlAt p).pwrctl 16 12 = 3200
    ∧ field (State.reset.ctlAt p).pwrstat 16 8 = 100 ∧ (∀ i : Fin 8, i ≠ 0 → (State.reset.ctlAt p).mr[i] = 0))
  ∧ ∀ n, (State.reset.portAt n).st = .untrained

/-- Memory at reset has the canonical form, the focus is on a core and a slot of the blade, and the reset agenda lies on
the blade. -/
def Obligations.ResetIsSound : Prop :=
  State.reset.sound = true ∧ State.reset.focused = true ∧ State.reset.onBlade = true

/-- The focus stays on a core and a slot of the blade: whatever step is taken, from whatever state; an instruction or an
event leaves it where it was. -/
def Obligations.FocusStaysOnTheBlade : Prop :=
  (∀ s t : State, s.focused = true → step s = .next t → t.focused = true)
  ∧ ∀ (i : Instr) (s t : State), exec i s = .next t → t.coreId = s.coreId ∧ t.slotId = s.slotId

/-- Memory keeps its canonical form: whatever step is taken, from whatever state. -/
def Obligations.StepsKeepMemoryCanonical : Prop := ∀ s t : State, s.sound = true → step s = .next t → t.sound = true

/-- A state whose agenda lies on the blade always steps, and so on for ever: no instruction and no event stops this
machine; a turn of a core or slot that the blade has not is the only fault. -/
def Obligations.StepsAlwaysAnswer : Prop :=
  (∀ s : State, s.onBlade = true → ∃ t, step s = .next t)
  ∧ (∀ (i : Instr) (s : State), ∃ t, exec i s = .next t)
  ∧ (∀ (s : State) (c n : Nat) (ts : List Turn), s.agenda = .issue c n :: ts → (18432 ≤ c ∨ 16 ≤ n) → step s = .fault .noSuchAgent)

/-- R50, R55, R62: encodings that hold no instruction. -/
def Obligations.UndefinedAndReservedEncodings : Prop :=
  Claims.ReservedEncodingsAreRefused ∧ Claims.UndefinedEncodingTraps
end

