-- ==== Sys2Proof/Laws/Memory.lean ====
section
/-! SUPPORT. The list of bytes: reading after writing, and that every operation keeps the canonical form. -/

namespace Sys2Proof.Machine

/-! ### The canonical form -/

/-- Every entry of a list lies above an address. -/
def Memory.above (a : Nat) (m : List Host.Cell) : Bool := m.all fun c => a < c.1

/-- The canonical form of a longer list: its first entry holds something and lies below the rest. -/
theorem Memory.wf_cons (c : Host.Cell) (m : List Host.Cell) :
    Memory.wf (c :: m) = true ↔ c.2 ≠ Memory.blank ∧ Memory.above c.1 m = true ∧ Memory.wf m = true := by
  induction m generalizing c with
  | nil => simp [Memory.wf, Memory.above]
  | cons d m ih =>
    have h := ih d
    simp only [Memory.wf, Memory.above, List.all_cons, Bool.and_eq_true, decide_eq_true_eq, bne_iff_ne, ne_eq] at *
    constructor
    · rintro ⟨⟨h1, h2⟩, h3⟩
      have ⟨_, h5, _⟩ := h.1 h3
      refine ⟨h1, ⟨h2, ?_⟩, h3⟩
      rw [List.all_eq_true] at h5 ⊢
      intro x hx
      have := h5 x hx
      simp only [decide_eq_true_eq] at this ⊢
      omega
    · rintro ⟨h1, ⟨h2, _⟩, h3⟩
      exact ⟨⟨h1, h2⟩, h3⟩

/-- A list above an address lies above every lower one. -/
theorem Memory.above_mono {a b : Nat} {m : List Host.Cell} (h : Memory.above b m = true) (hab : a ≤ b) : Memory.above a m = true := by
  simp only [Memory.above, List.all_eq_true, decide_eq_true_eq] at *
  intro x hx
  have := h x hx
  omega

theorem Memory.above_cons {a : Nat} {c : Host.Cell} {m : List Host.Cell} :
    Memory.above a (c :: m) = true ↔ a < c.1 ∧ Memory.above a m = true := by
  simp only [Memory.above, List.all_cons, Bool.and_eq_true, decide_eq_true_eq]

/-- Writing a byte above an address leaves the list above it. -/
theorem Memory.above_set {a k : Nat} {b : Byte} {m : List Host.Cell} (h : Memory.above a m = true) (hk : a < k) :
    Memory.above a (Memory.set m k b) = true := by
  induction m with
  | nil => unfold Memory.set; split <;> simp [Memory.above, hk]
  | cons c m ih =>
    have hc := Memory.above_cons.1 h
    unfold Memory.set
    split
    · split
      · exact hc.2
      · exact Memory.above_cons.2 ⟨hk, hc.2⟩
    · split
      · split
        · exact h
        · exact Memory.above_cons.2 ⟨hk, h⟩
      · exact Memory.above_cons.2 ⟨hc.1, ih hc.2⟩

/-- Writing a byte keeps the canonical form. -/
theorem Memory.wf_set {m : List Host.Cell} (h : Memory.wf m = true) (k : Nat) (b : Byte) : Memory.wf (Memory.set m k b) = true := by
  induction m with
  | nil => unfold Memory.set; split <;> simp_all [Memory.wf]
  | cons c m ih =>
    have hc := (Memory.wf_cons c m).1 h
    unfold Memory.set
    split
    · rename_i e
      split
      · exact hc.2.2
      · exact (Memory.wf_cons _ _).2 ⟨by assumption, by simpa [← e] using hc.2.1, hc.2.2⟩
    · split
      · rename_i e
        split
        · exact h
        · refine (Memory.wf_cons _ _).2 ⟨by assumption, ?_, h⟩
          simp only [Memory.above, List.all_cons, Bool.and_eq_true, decide_eq_true_eq]
          exact ⟨e, Memory.above_mono hc.2.1 (Nat.le_of_lt e)⟩
      · exact (Memory.wf_cons _ _).2 ⟨hc.1, Memory.above_set hc.2.1 (by omega), ih hc.2.2⟩

/-- Writing a run of bytes keeps the canonical form. -/
theorem Memory.wf_setBytes {m : List Host.Cell} (h : Memory.wf m = true) (k : Nat) (bs : List Byte) :
    Memory.wf (Memory.setBytes m k bs) = true := by
  induction bs generalizing m k with
  | nil => exact h
  | cons b bs ih => exact ih (Memory.wf_set h k b) (k + 1)

/-- Writing the bytes of a block that are given keeps the canonical form. -/
theorem Memory.wf_setSome {m : List Host.Cell} (h : Memory.wf m = true) (k : Nat) (bs : List (Option Byte)) :
    Memory.wf (Memory.setSome m k bs) = true := by
  induction bs generalizing m k with
  | nil => exact h
  | cons b bs ih =>
    cases b with
    | none => exact ih h (k + 1)
    | some b => exact ih (Memory.wf_set h k b) (k + 1)

/-- What is taken out of a list in canonical form leaves a list in canonical form. -/
theorem Memory.wf_filter {m : List Host.Cell} (h : Memory.wf m = true) (p : Host.Cell → Bool) : Memory.wf (m.filter p) = true := by
  induction m with
  | nil => rfl
  | cons c m ih =>
    have hc := (Memory.wf_cons c m).1 h
    rw [List.filter_cons]
    split
    · refine (Memory.wf_cons _ _).2 ⟨hc.1, ?_, ih hc.2.2⟩
      have := hc.2.1
      simp only [Memory.above, List.all_eq_true, decide_eq_true_eq, List.mem_filter] at *
      exact fun x hx => this x hx.1
    · exact ih hc.2.2

/-! ### Reading after writing -/

/-- A key below every entry reads as the unlisted value. -/
theorem Memory.get_below {a : Nat} {m : List Host.Cell} (h : Memory.above a m = true) : Memory.get m a = Memory.blank := by
  cases m with
  | nil => rfl
  | cons c m =>
    simp only [Memory.above, List.all_cons, Bool.and_eq_true, decide_eq_true_eq] at h
    unfold Memory.get
    rw [if_neg (by omega), if_pos h.1]

/-- What a byte reads as after one byte has been written. -/
theorem Memory.get_set {m : List Host.Cell} (h : Memory.wf m = true) (k : Nat) (b : Byte) (a : Nat) :
    Memory.get (Memory.set m k b) a = if a = k then b else Memory.get m a := by
  induction m with
  | nil => unfold Memory.set; split <;> (unfold Memory.get; split <;> simp_all [Memory.get]) <;> omega
  | cons c m ih =>
    have hc := (Memory.wf_cons c m).1 h
    have ih := ih hc.2.2
    unfold Memory.set
    by_cases e : c.1 = k
    · rw [if_pos e]
      have low : Memory.get m k = Memory.blank := Memory.get_below (e ▸ hc.2.1)
      split
      · rename_i hb
        subst hb
        by_cases ha : a = k
        · rw [if_pos ha, ha, low]
        · rw [if_neg ha]
          conv => rhs; unfold Memory.get
          rw [if_neg (by omega)]
          split
          · exact Memory.get_below (Memory.above_mono hc.2.1 (by omega))
          · rfl
      · simp only [Memory.get]
        by_cases ha : a = k
        · rw [if_pos ha.symm, if_pos ha]
        · rw [if_neg fun h => ha h.symm, if_neg ha, if_neg (by omega : ¬ c.1 = a), e]
    · rw [if_neg e]
      by_cases l : k < c.1
      · rw [if_pos l]
        have low : Memory.get (c :: m) k = Memory.blank := by unfold Memory.get; rw [if_neg (by omega), if_pos l]
        split
        · rename_i hb
          by_cases ha : a = k
          · rw [if_pos ha, ha, low, hb]
          · rw [if_neg ha]
        · by_cases ha : a = k
          · rw [if_pos ha]; unfold Memory.get; rw [if_pos ha.symm]
          · rw [if_neg ha]
            conv => lhs; unfold Memory.get
            rw [if_neg fun h => ha h.symm]
            split
            · unfold Memory.get; rw [if_neg (by omega), if_pos (by simp only at *; omega)]
            · rfl
      · rw [if_neg l]
        simp only [Memory.get]
        by_cases ha : c.1 = a
        · rw [if_pos ha, if_pos ha, if_neg (by omega)]
        · rw [if_neg ha, if_neg ha, ih]
          split
          · rw [if_neg (by omega)]
          · rfl

/-- Writing a run of bytes leaves every byte outside the run as it was. -/
theorem Memory.get_setBytes_outside {m : List Host.Cell} (h : Memory.wf m = true) (k : Nat) (bs : List Byte) (a : Nat)
    (ha : a < k ∨ k + bs.length ≤ a) : Memory.get (Memory.setBytes m k bs) a = Memory.get m a := by
  induction bs generalizing m k with
  | nil => rfl
  | cons b bs ih =>
    simp only [List.length_cons] at ha
    rw [Memory.setBytes, ih (Memory.wf_set h k b) (k + 1) (by omega), Memory.get_set h, if_neg (by omega)]

/-- Writing a block leaves every byte outside the block as it was. -/
theorem Memory.get_setSome_outside {m : List Host.Cell} (h : Memory.wf m = true) (k : Nat) (bs : List (Option Byte)) (a : Nat)
    (ha : a < k ∨ k + bs.length ≤ a) : Memory.get (Memory.setSome m k bs) a = Memory.get m a := by
  induction bs generalizing m k with
  | nil => rfl
  | cons b bs ih =>
    simp only [List.length_cons] at ha
    cases b with
    | none => rw [Memory.setSome, ih h (k + 1) (by omega)]
    | some b => rw [Memory.setSome, ih (Memory.wf_set h k b) (k + 1) (by omega), Memory.get_set h, if_neg (by omega)]

/-- Writing a block changes the bytes that are given and no other. -/
theorem Memory.get_setSome {m : List Host.Cell} (h : Memory.wf m = true) (k : Nat) (bs : List (Option Byte)) (i : Nat)
    (hi : i < bs.length) : Memory.get (Memory.setSome m k bs) (k + i) = (bs[i]).getD (Memory.get m (k + i)) := by
  induction bs generalizing m k i with
  | nil => simp at hi
  | cons b bs ih =>
    simp only [List.length_cons] at hi
    cases i with
    | zero =>
      cases b with
      | none => rw [Memory.setSome, Memory.get_setSome_outside h _ _ _ (by omega)]; rfl
      | some b =>
        rw [Memory.setSome, Memory.get_setSome_outside (Memory.wf_set h k b) _ _ _ (by omega), Memory.get_set h]
        simp
    | succ i =>
      have e : k + (i + 1) = k + 1 + i := by omega
      cases b with
      | none =>
        have := ih h (k + 1) i (by omega)
        simp only [Memory.setSome, List.getElem_cons_succ, e, this]
      | some b =>
        have := ih (Memory.wf_set h k b) (k + 1) i (by omega)
        simp only [Memory.setSome, List.getElem_cons_succ, e, this, Memory.get_set h]
        rw [if_neg (by omega)]

/-- A run of bytes that is written reads back. -/
theorem Memory.bytes_setBytes {m : List Host.Cell} (h : Memory.wf m = true) (k : Nat) (bs : List Byte) :
    Memory.bytes (Memory.setBytes m k bs) k bs.length = bs := by
  induction bs generalizing m k with
  | nil => rfl
  | cons b bs ih =>
    simp only [List.length_cons, Memory.bytes, Memory.setBytes]
    rw [ih (Memory.wf_set h k b) (k + 1), Memory.get_setBytes_outside (Memory.wf_set h k b) _ _ _ (by omega), Memory.get_set h]
    simp

/-! ### The machine's writes -/

/-- A store keeps the canonical form of memory. -/
theorem State.storeRec_sound {s : State} (h : Memory.wf s.mem = true) (c : Agent) (key : Nat) (data : List (Option Byte))
    (x : Option Scope) (b : Option (Nat × Nat × Nat × Bool)) : Memory.wf (s.storeRec c key data x b).mem = true :=
  Memory.wf_setSome h key data

/-- A store by an agent changes no byte outside those it stores. -/
theorem State.store_outside {s : State} (h : Memory.wf s.mem = true) (c : Agent) (key : Nat) (data : List Byte) (a : Nat)
    (ha : a < key ∨ key + data.length ≤ a) : Memory.get (s.store c key data).mem a = Memory.get s.mem a :=
  Memory.get_setSome_outside h key _ a (by simpa using ha)

/-- Moving a page's bytes keeps the canonical form of memory. -/
theorem moveBytes_wf {m : List Host.Cell} (h : Memory.wf m = true) (old new n : Nat) : Memory.wf (moveBytes old new n m) = true := by
  unfold moveBytes
  have start := Memory.wf_filter h fun c => !(new ≤ c.1 && c.1 < new + n)
  generalize m.filter (fun c => old ≤ c.1 && c.1 < old + n) = cs
  generalize m.filter (fun c => !(new ≤ c.1 && c.1 < new + n)) = m' at start
  induction cs generalizing m' with
  | nil => exact start
  | cons c cs ih => exact ih _ (Memory.wf_set start _ _)

/-- Memory right after reset is in canonical form. -/
theorem State.reset_mem : Memory.wf State.reset.mem = true := rfl

end Sys2Proof.Machine
end

