-- ==== Sys2Proof/Laws/Operands.lean ====
section
/-! SUPPORT. What reading and writing a scalar operand does, said once. -/

namespace Sys2Proof.Machine

/-! ### Acts -/

/-- An act that comes to something has come through its first part. -/
theorem act_of_bind {α β : Type} {x : Act α} {f : α → Act β} {r : β} (h : x >>= f = .ok r) : ∃ a, x = .ok a ∧ f a = .ok r := by
  rcases x with e | a
  · exact nomatch h
  · exact ⟨a, rfl, h⟩

/-- A check that stops where its condition holds has passed, if something comes out. -/
theorem act_of_check {α : Type} {p : Prop} [Decidable p] {e : Stop} {x : Act α} {r : α} (h : (if p then .error e else x) = .ok r) :
    x = .ok r := by
  by_cases hp : p
  · rw [if_pos hp] at h; exact nomatch h
  · rwa [if_neg hp] at h

/-! ### Reading -/

@[simp] theorem State.readS_w (s : State) (n : Fin 24) : s.readS (.w n) = .ok (wGet s.slot.w n, s) := rfl

/-- Reading q2 pops it (R29). -/
theorem State.readS_q2 {s : State} {x : Word} {xs : List Word} (h : s.slot.q2 = x :: xs) :
    s.readS (.q 2) = .ok (x, { s with slot := { s.slot with
      q2 := xs, pops := s.slot.pops ++ [{ pos := s.slot.pos, third := false, val := x }] } }) := by
  simp [State.readS, h]

/-- Reading q3 pops it (R29). -/
theorem State.readS_q3 {s : State} {x : Word} {xs : List Word} (h : s.slot.q3 = x :: xs) :
    s.readS (.q 3) = .ok (x, { s with slot := { s.slot with
      q3 := xs, pops := s.slot.pops ++ [{ pos := s.slot.pos, third := true, val := x }] } }) := by
  simp [State.readS, h]

/-- What a successful read of a link may change: the values that the slot has taken, and the core's inbound links. -/
theorem State.readLink_frame {s t : State} {d : Dir} {v : VReg} (h : s.readLink d = .ok (v, t)) :
    t = { s with slot := { s.slot with par := { s.slot.par with taken := t.slot.par.taken } }
                 core := { s.core with links := t.core.links } } := by
  obtain ⟨_, -, h⟩ := act_of_bind h
  revert h
  split
  · rintro ⟨⟩; rfl
  · split <;> rintro ⟨⟩
    rfl

/-- What a successful read of a scalar operand may change: q2, q3 with the record of their pops, the first values
taken from links, and the core's inbound links; nothing else of the machine. -/
theorem State.readS_frame {s t : State} {o : SOpd} {x : Word} (h : s.readS o = .ok (x, t)) :
    t = { s with slot := { s.slot with q2 := t.slot.q2, q3 := t.slot.q3, pops := t.slot.pops
                                       par := { s.slot.par with taken := t.slot.par.taken } }
                 core := { s.core with links := t.core.links } } := by
  cases o with
  | w n => cases h; rfl
  | q n =>
    have h := act_of_check h
    revert h
    split <;> split <;> rintro ⟨⟩ <;> rfl
  | link d =>
    obtain ⟨⟨v, u⟩, hl, h⟩ := act_of_bind h
    cases h
    have f := State.readLink_frame hl
    rw [f]

/-- Reading a scalar operand leaves memory alone. -/
theorem State.readS_mem {s t : State} {o : SOpd} {x : Word} (h : s.readS o = .ok (x, t)) : t.mem = s.mem := by
  rw [State.readS_frame h]

/-- Reading a scalar operand leaves the registers alone. -/
theorem State.readS_w_eq {s t : State} {o : SOpd} {x : Word} (h : s.readS o = .ok (x, t)) : t.slot.w = s.slot.w := by
  rw [State.readS_frame h]

/-! ### Writing -/

@[simp] theorem State.writeS_w (s : State) (n : Fin 24) (x : Word) :
    s.writeS (.w n) x = .ok { s with slot := { s.slot with w := wSet s.slot.w n x } } := rfl

/-- Writing q0 pushes it, unless it is full (R29). -/
theorem State.writeS_q0 {s : State} (x : Word) (h : s.slot.q0.length < 8) :
    s.writeS (.q 0) x = .ok { s with slot := { s.slot with q0 := s.slot.q0 ++ [{ val := x, at_ := s.slot.here }] } } := by
  simp [State.writeS, Nat.not_le.2 h]

/-- Writing q1 pushes it, unless it is full (R29). -/
theorem State.writeS_q1 {s : State} (x : Word) (h : s.slot.q1.length < 8) :
    s.writeS (.q 1) x = .ok { s with slot := { s.slot with q1 := s.slot.q1 ++ [{ val := x, at_ := s.slot.here }] } } := by
  simp [State.writeS, Nat.not_le.2 h]

/-- What a successful write of a scalar operand may change: the slot's w registers, q0 and q1, and a core's inbound
link; memory and the rest of the machine stay. -/
theorem State.writeS_frame {s t : State} {o : SOpd} {x : Word} (h : s.writeS o x = .ok t) :
    t = { s with slot := { s.slot with w := t.slot.w, q0 := t.slot.q0, q1 := t.slot.q1 }, core := t.core, cores := t.cores } := by
  cases o with
  | w n => cases h; rfl
  | q n =>
    have h := act_of_check h
    revert h
    split <;> split <;> rintro ⟨⟩ <;> rfl
  | link d =>
    obtain ⟨_, -, h⟩ := act_of_bind h
    revert h
    split
    · rintro ⟨⟩
    · intro h
      cases act_of_check h
      unfold State.setCore
      split <;> rfl

/-- Writing a scalar operand leaves memory alone. -/
theorem State.writeS_mem {s t : State} {o : SOpd} {x : Word} (h : s.writeS o x = .ok t) : t.mem = s.mem := by
  rw [State.writeS_frame h]

/-! ### Replacing a core -/

/-- The core that has been replaced reads as its replacement. -/
theorem State.coreAt_setCore_self {s : State} {c : Nat} {k : Core} : (s.setCore c k).coreAt c = k := by
  unfold State.setCore
  split
  · simp [State.coreAt, *]
  · rename_i h
    simp only [State.coreAt, h, if_false]
    generalize s.cores = l
    induction l with
    | nil => simp [assocSet, assocGet]
    | cons p l ih =>
      obtain ⟨j, u⟩ := p
      unfold assocSet
      split
      · simp [assocGet]
      · split
        · simp [assocGet]
        · rename_i h1 _
          simp only [assocGet, if_neg h1]
          exact ih

/-- Replacing a core leaves memory alone. -/
@[simp] theorem State.setCore_mem (s : State) (c : Nat) (k : Core) : (s.setCore c k).mem = s.mem := by
  unfold State.setCore; split <;> rfl

end Sys2Proof.Machine
end

