-- ==== Sys2Proof/Laws/State.lean ====
section
/-! SUPPORT. What the plain updates of the state do to each of its fields, so that no proof unfolds a record update. -/

namespace Sys2Proof.Machine

/-! ### setPar -/

section
variable (s : State) (p : SlotPar)

@[simp] theorem State.setPar_coreId : (s.setPar p).coreId = s.coreId := rfl
@[simp] theorem State.setPar_slotId : (s.setPar p).slotId = s.slotId := rfl
@[simp] theorem State.setPar_slot : (s.setPar p).slot = { s.slot with par := p } := rfl
@[simp] theorem State.setPar_core : (s.setPar p).core = s.core := rfl
@[simp] theorem State.setPar_cores : (s.setPar p).cores = s.cores := rfl
@[simp] theorem State.setPar_clusterTlb : (s.setPar p).clusterTlb = s.clusterTlb := rfl
@[simp] theorem State.setPar_kernels : (s.setPar p).kernels = s.kernels := rfl
@[simp] theorem State.setPar_flight : (s.setPar p).flight = s.flight := rfl
@[simp] theorem State.setPar_gangs : (s.setPar p).gangs = s.gangs := rfl
@[simp] theorem State.setPar_pages : (s.setPar p).pages = s.pages := rfl
@[simp] theorem State.setPar_redirects : (s.setPar p).redirects = s.redirects := rfl
@[simp] theorem State.setPar_ctls : (s.setPar p).ctls = s.ctls := rfl
@[simp] theorem State.setPar_events : (s.setPar p).events = s.events := rfl
@[simp] theorem State.setPar_flips : (s.setPar p).flips = s.flips := rfl
@[simp] theorem State.setPar_tensors : (s.setPar p).tensors = s.tensors := rfl
@[simp] theorem State.setPar_tops : (s.setPar p).tops = s.tops := rfl
@[simp] theorem State.setPar_mem : (s.setPar p).mem = s.mem := rfl
@[simp] theorem State.setPar_hist : (s.setPar p).hist = s.hist := rfl
@[simp] theorem State.setPar_releases : (s.setPar p).releases = s.releases := rfl
@[simp] theorem State.setPar_seq : (s.setPar p).seq = s.seq := rfl
@[simp] theorem State.setPar_timeBase : (s.setPar p).timeBase = s.timeBase := rfl
@[simp] theorem State.setPar_cycle : (s.setPar p).cycle = s.cycle := rfl
@[simp] theorem State.setPar_free : (s.setPar p).free = s.free := rfl
@[simp] theorem State.setPar_ids : (s.setPar p).ids = s.ids := rfl
@[simp] theorem State.setPar_agenda : (s.setPar p).agenda = s.agenda := rfl
@[simp] theorem State.setPar_resolving : (s.setPar p).resolving = s.resolving := rfl
@[simp] theorem State.setPar_passed : (s.setPar p).passed = s.passed := rfl
@[simp] theorem State.setPar_ceilings : (s.setPar p).ceilings = s.ceilings := rfl
@[simp] theorem State.setPar_late : (s.setPar p).late = s.late := rfl
@[simp] theorem State.setPar_hartReads : (s.setPar p).hartReads = s.hartReads := rfl
@[simp] theorem State.setPar_disabled : (s.setPar p).disabled = s.disabled := rfl
@[simp] theorem State.setPar_lag : (s.setPar p).lag = s.lag := rfl
@[simp] theorem State.setPar_handles : (s.setPar p).handles = s.handles := rfl
@[simp] theorem State.setPar_hartOrder : (s.setPar p).hartOrder = s.hartOrder := rfl

end

/-! ### emit -/

section
variable (s : State) (e : StageEvent)

@[simp] theorem State.emit_coreId : (s.emit e).coreId = s.coreId := rfl
@[simp] theorem State.emit_slotId : (s.emit e).slotId = s.slotId := rfl
@[simp] theorem State.emit_slot : (s.emit e).slot = s.slot := rfl
@[simp] theorem State.emit_core : (s.emit e).core = s.core := rfl
@[simp] theorem State.emit_cores : (s.emit e).cores = s.cores := rfl
@[simp] theorem State.emit_clusterTlb : (s.emit e).clusterTlb = s.clusterTlb := rfl
@[simp] theorem State.emit_kernels : (s.emit e).kernels = s.kernels := rfl
@[simp] theorem State.emit_flight : (s.emit e).flight = s.flight := rfl
@[simp] theorem State.emit_gangs : (s.emit e).gangs = s.gangs := rfl
@[simp] theorem State.emit_pages : (s.emit e).pages = s.pages := rfl
@[simp] theorem State.emit_redirects : (s.emit e).redirects = s.redirects := rfl
@[simp] theorem State.emit_ctls : (s.emit e).ctls = s.ctls := rfl
@[simp] theorem State.emit_events : (s.emit e).events = s.events ++ [e] := rfl
@[simp] theorem State.emit_flips : (s.emit e).flips = s.flips := rfl
@[simp] theorem State.emit_tensors : (s.emit e).tensors = s.tensors := rfl
@[simp] theorem State.emit_tops : (s.emit e).tops = s.tops := rfl
@[simp] theorem State.emit_mem : (s.emit e).mem = s.mem := rfl
@[simp] theorem State.emit_hist : (s.emit e).hist = s.hist := rfl
@[simp] theorem State.emit_releases : (s.emit e).releases = s.releases := rfl
@[simp] theorem State.emit_seq : (s.emit e).seq = s.seq := rfl
@[simp] theorem State.emit_timeBase : (s.emit e).timeBase = s.timeBase := rfl
@[simp] theorem State.emit_cycle : (s.emit e).cycle = s.cycle := rfl
@[simp] theorem State.emit_free : (s.emit e).free = s.free := rfl
@[simp] theorem State.emit_ids : (s.emit e).ids = s.ids := rfl
@[simp] theorem State.emit_agenda : (s.emit e).agenda = s.agenda := rfl
@[simp] theorem State.emit_resolving : (s.emit e).resolving = s.resolving := rfl
@[simp] theorem State.emit_passed : (s.emit e).passed = s.passed := rfl
@[simp] theorem State.emit_ceilings : (s.emit e).ceilings = s.ceilings := rfl
@[simp] theorem State.emit_late : (s.emit e).late = s.late := rfl
@[simp] theorem State.emit_hartReads : (s.emit e).hartReads = s.hartReads := rfl
@[simp] theorem State.emit_disabled : (s.emit e).disabled = s.disabled := rfl
@[simp] theorem State.emit_lag : (s.emit e).lag = s.lag := rfl
@[simp] theorem State.emit_handles : (s.emit e).handles = s.handles := rfl
@[simp] theorem State.emit_hartOrder : (s.emit e).hartOrder = s.hartOrder := rfl

end

/-! ### drew -/

section
variable (s : State)

@[simp] theorem State.drew_coreId : s.drew.coreId = s.coreId := rfl
@[simp] theorem State.drew_slotId : s.drew.slotId = s.slotId := rfl
@[simp] theorem State.drew_slot : s.drew.slot = s.slot := rfl
@[simp] theorem State.drew_core : s.drew.core = s.core := rfl
@[simp] theorem State.drew_cores : s.drew.cores = s.cores := rfl
@[simp] theorem State.drew_clusterTlb : s.drew.clusterTlb = s.clusterTlb := rfl
@[simp] theorem State.drew_kernels : s.drew.kernels = s.kernels := rfl
@[simp] theorem State.drew_flight : s.drew.flight = s.flight := rfl
@[simp] theorem State.drew_gangs : s.drew.gangs = s.gangs := rfl
@[simp] theorem State.drew_pages : s.drew.pages = s.pages := rfl
@[simp] theorem State.drew_redirects : s.drew.redirects = s.redirects := rfl
@[simp] theorem State.drew_ctls : s.drew.ctls = s.ctls := rfl
@[simp] theorem State.drew_events : s.drew.events = s.events := rfl
@[simp] theorem State.drew_flips : s.drew.flips = s.flips := rfl
@[simp] theorem State.drew_tensors : s.drew.tensors = s.tensors := rfl
@[simp] theorem State.drew_tops : s.drew.tops = s.tops := rfl
@[simp] theorem State.drew_mem : s.drew.mem = s.mem := rfl
@[simp] theorem State.drew_hist : s.drew.hist = s.hist := rfl
@[simp] theorem State.drew_releases : s.drew.releases = s.releases := rfl
@[simp] theorem State.drew_seq : s.drew.seq = s.seq := rfl
@[simp] theorem State.drew_timeBase : s.drew.timeBase = s.timeBase := rfl
@[simp] theorem State.drew_cycle : s.drew.cycle = s.cycle := rfl
@[simp] theorem State.drew_free : s.drew.free = s.free + 1 := rfl
@[simp] theorem State.drew_ids : s.drew.ids = s.ids := rfl
@[simp] theorem State.drew_agenda : s.drew.agenda = s.agenda := rfl
@[simp] theorem State.drew_resolving : s.drew.resolving = s.resolving := rfl
@[simp] theorem State.drew_passed : s.drew.passed = s.passed := rfl
@[simp] theorem State.drew_ceilings : s.drew.ceilings = s.ceilings := rfl
@[simp] theorem State.drew_late : s.drew.late = s.late := rfl
@[simp] theorem State.drew_hartReads : s.drew.hartReads = s.hartReads := rfl
@[simp] theorem State.drew_disabled : s.drew.disabled = s.disabled := rfl
@[simp] theorem State.drew_lag : s.drew.lag = s.lag := rfl

end

/-! ### numbered -/

section
variable (s : State)

@[simp] theorem State.numbered_coreId : s.numbered.coreId = s.coreId := rfl
@[simp] theorem State.numbered_slotId : s.numbered.slotId = s.slotId := rfl
@[simp] theorem State.numbered_slot : s.numbered.slot = s.slot := rfl
@[simp] theorem State.numbered_core : s.numbered.core = s.core := rfl
@[simp] theorem State.numbered_cores : s.numbered.cores = s.cores := rfl
@[simp] theorem State.numbered_clusterTlb : s.numbered.clusterTlb = s.clusterTlb := rfl
@[simp] theorem State.numbered_kernels : s.numbered.kernels = s.kernels := rfl
@[simp] theorem State.numbered_flight : s.numbered.flight = s.flight := rfl
@[simp] theorem State.numbered_gangs : s.numbered.gangs = s.gangs := rfl
@[simp] theorem State.numbered_pages : s.numbered.pages = s.pages := rfl
@[simp] theorem State.numbered_redirects : s.numbered.redirects = s.redirects := rfl
@[simp] theorem State.numbered_ctls : s.numbered.ctls = s.ctls := rfl
@[simp] theorem State.numbered_events : s.numbered.events = s.events := rfl
@[simp] theorem State.numbered_flips : s.numbered.flips = s.flips := rfl
@[simp] theorem State.numbered_tensors : s.numbered.tensors = s.tensors := rfl
@[simp] theorem State.numbered_tops : s.numbered.tops = s.tops := rfl
@[simp] theorem State.numbered_mem : s.numbered.mem = s.mem := rfl
@[simp] theorem State.numbered_hist : s.numbered.hist = s.hist := rfl
@[simp] theorem State.numbered_releases : s.numbered.releases = s.releases := rfl
@[simp] theorem State.numbered_seq : s.numbered.seq = s.seq := rfl
@[simp] theorem State.numbered_timeBase : s.numbered.timeBase = s.timeBase := rfl
@[simp] theorem State.numbered_cycle : s.numbered.cycle = s.cycle := rfl
@[simp] theorem State.numbered_free : s.numbered.free = s.free := rfl
@[simp] theorem State.numbered_ids : s.numbered.ids = s.ids + 1 := rfl
@[simp] theorem State.numbered_agenda : s.numbered.agenda = s.agenda := rfl
@[simp] theorem State.numbered_resolving : s.numbered.resolving = s.resolving := rfl
@[simp] theorem State.numbered_passed : s.numbered.passed = s.passed := rfl
@[simp] theorem State.numbered_ceilings : s.numbered.ceilings = s.ceilings := rfl
@[simp] theorem State.numbered_late : s.numbered.late = s.late := rfl
@[simp] theorem State.numbered_hartReads : s.numbered.hartReads = s.hartReads := rfl
@[simp] theorem State.numbered_disabled : s.numbered.disabled = s.disabled := rfl
@[simp] theorem State.numbered_lag : s.numbered.lag = s.lag := rfl

end

/-! ### setCtl -/

section
variable (s : State) (p : Nat) (c : Ctl)

@[simp] theorem State.setCtl_coreId : (s.setCtl p c).coreId = s.coreId := rfl
@[simp] theorem State.setCtl_slotId : (s.setCtl p c).slotId = s.slotId := rfl
@[simp] theorem State.setCtl_slot : (s.setCtl p c).slot = s.slot := rfl
@[simp] theorem State.setCtl_core : (s.setCtl p c).core = s.core := rfl
@[simp] theorem State.setCtl_cores : (s.setCtl p c).cores = s.cores := rfl
@[simp] theorem State.setCtl_clusterTlb : (s.setCtl p c).clusterTlb = s.clusterTlb := rfl
@[simp] theorem State.setCtl_kernels : (s.setCtl p c).kernels = s.kernels := rfl
@[simp] theorem State.setCtl_flight : (s.setCtl p c).flight = s.flight := rfl
@[simp] theorem State.setCtl_gangs : (s.setCtl p c).gangs = s.gangs := rfl
@[simp] theorem State.setCtl_pages : (s.setCtl p c).pages = s.pages := rfl
@[simp] theorem State.setCtl_redirects : (s.setCtl p c).redirects = s.redirects := rfl
@[simp] theorem State.setCtl_ctls : (s.setCtl p c).ctls = if p < Config.packages then assocSet p c s.ctls else s.ctls := rfl
@[simp] theorem State.setCtl_events : (s.setCtl p c).events = s.events := rfl
@[simp] theorem State.setCtl_flips : (s.setCtl p c).flips = s.flips := rfl
@[simp] theorem State.setCtl_tensors : (s.setCtl p c).tensors = s.tensors := rfl
@[simp] theorem State.setCtl_tops : (s.setCtl p c).tops = s.tops := rfl
@[simp] theorem State.setCtl_mem : (s.setCtl p c).mem = s.mem := rfl
@[simp] theorem State.setCtl_hist : (s.setCtl p c).hist = s.hist := rfl
@[simp] theorem State.setCtl_releases : (s.setCtl p c).releases = s.releases := rfl
@[simp] theorem State.setCtl_seq : (s.setCtl p c).seq = s.seq := rfl
@[simp] theorem State.setCtl_timeBase : (s.setCtl p c).timeBase = s.timeBase := rfl
@[simp] theorem State.setCtl_cycle : (s.setCtl p c).cycle = s.cycle := rfl
@[simp] theorem State.setCtl_free : (s.setCtl p c).free = s.free := rfl
@[simp] theorem State.setCtl_ids : (s.setCtl p c).ids = s.ids := rfl
@[simp] theorem State.setCtl_agenda : (s.setCtl p c).agenda = s.agenda := rfl
@[simp] theorem State.setCtl_resolving : (s.setCtl p c).resolving = s.resolving := rfl
@[simp] theorem State.setCtl_passed : (s.setCtl p c).passed = s.passed := rfl
@[simp] theorem State.setCtl_ceilings : (s.setCtl p c).ceilings = s.ceilings := rfl
@[simp] theorem State.setCtl_late : (s.setCtl p c).late = s.late := rfl
@[simp] theorem State.setCtl_hartReads : (s.setCtl p c).hartReads = s.hartReads := rfl
@[simp] theorem State.setCtl_disabled : (s.setCtl p c).disabled = s.disabled := rfl
@[simp] theorem State.setCtl_lag : (s.setCtl p c).lag = s.lag := rfl
@[simp] theorem State.setCtl_handles : (s.setCtl p c).handles = s.handles := rfl
@[simp] theorem State.setCtl_hartOrder : (s.setCtl p c).hartOrder = s.hartOrder := rfl

end

/-! ### setKernel -/

section
variable (s : State) (k : Kernel)

@[simp] theorem State.setKernel_coreId : (s.setKernel k).coreId = s.coreId := rfl
@[simp] theorem State.setKernel_slotId : (s.setKernel k).slotId = s.slotId := rfl
@[simp] theorem State.setKernel_slot : (s.setKernel k).slot = s.slot := rfl
@[simp] theorem State.setKernel_core : (s.setKernel k).core = s.core := rfl
@[simp] theorem State.setKernel_cores : (s.setKernel k).cores = s.cores := rfl
@[simp] theorem State.setKernel_clusterTlb : (s.setKernel k).clusterTlb = s.clusterTlb := rfl
@[simp] theorem State.setKernel_kernels : (s.setKernel k).kernels = assocSet k.kid k s.kernels := rfl
@[simp] theorem State.setKernel_flight : (s.setKernel k).flight = s.flight := rfl
@[simp] theorem State.setKernel_gangs : (s.setKernel k).gangs = s.gangs := rfl
@[simp] theorem State.setKernel_pages : (s.setKernel k).pages = s.pages := rfl
@[simp] theorem State.setKernel_redirects : (s.setKernel k).redirects = s.redirects := rfl
@[simp] theorem State.setKernel_ctls : (s.setKernel k).ctls = s.ctls := rfl
@[simp] theorem State.setKernel_events : (s.setKernel k).events = s.events := rfl
@[simp] theorem State.setKernel_flips : (s.setKernel k).flips = s.flips := rfl
@[simp] theorem State.setKernel_tensors : (s.setKernel k).tensors = s.tensors := rfl
@[simp] theorem State.setKernel_tops : (s.setKernel k).tops = s.tops := rfl
@[simp] theorem State.setKernel_mem : (s.setKernel k).mem = s.mem := rfl
@[simp] theorem State.setKernel_hist : (s.setKernel k).hist = s.hist := rfl
@[simp] theorem State.setKernel_releases : (s.setKernel k).releases = s.releases := rfl
@[simp] theorem State.setKernel_seq : (s.setKernel k).seq = s.seq := rfl
@[simp] theorem State.setKernel_timeBase : (s.setKernel k).timeBase = s.timeBase := rfl
@[simp] theorem State.setKernel_cycle : (s.setKernel k).cycle = s.cycle := rfl
@[simp] theorem State.setKernel_free : (s.setKernel k).free = s.free := rfl
@[simp] theorem State.setKernel_ids : (s.setKernel k).ids = s.ids := rfl
@[simp] theorem State.setKernel_agenda : (s.setKernel k).agenda = s.agenda := rfl
@[simp] theorem State.setKernel_resolving : (s.setKernel k).resolving = s.resolving := rfl
@[simp] theorem State.setKernel_passed : (s.setKernel k).passed = s.passed := rfl
@[simp] theorem State.setKernel_ceilings : (s.setKernel k).ceilings = s.ceilings := rfl
@[simp] theorem State.setKernel_late : (s.setKernel k).late = s.late := rfl
@[simp] theorem State.setKernel_hartReads : (s.setKernel k).hartReads = s.hartReads := rfl
@[simp] theorem State.setKernel_disabled : (s.setKernel k).disabled = s.disabled := rfl
@[simp] theorem State.setKernel_lag : (s.setKernel k).lag = s.lag := rfl
@[simp] theorem State.setKernel_handles : (s.setKernel k).handles = s.handles := rfl
@[simp] theorem State.setKernel_hartOrder : (s.setKernel k).hartOrder = s.hartOrder := rfl

end

/-! ### fly -/

section
variable (s : State) (f : Flight)

@[simp] theorem State.fly_coreId : (s.fly f).coreId = s.coreId := rfl
@[simp] theorem State.fly_slotId : (s.fly f).slotId = s.slotId := rfl
@[simp] theorem State.fly_slot : (s.fly f).slot = s.slot := rfl
@[simp] theorem State.fly_core : (s.fly f).core = s.core := rfl
@[simp] theorem State.fly_cores : (s.fly f).cores = s.cores := rfl
@[simp] theorem State.fly_clusterTlb : (s.fly f).clusterTlb = s.clusterTlb := rfl
@[simp] theorem State.fly_kernels : (s.fly f).kernels = s.kernels := rfl
@[simp] theorem State.fly_flight : (s.fly f).flight = s.flight ++ [f] := rfl
@[simp] theorem State.fly_gangs : (s.fly f).gangs = s.gangs := rfl
@[simp] theorem State.fly_pages : (s.fly f).pages = s.pages := rfl
@[simp] theorem State.fly_redirects : (s.fly f).redirects = s.redirects := rfl
@[simp] theorem State.fly_ctls : (s.fly f).ctls = s.ctls := rfl
@[simp] theorem State.fly_events : (s.fly f).events = s.events := rfl
@[simp] theorem State.fly_flips : (s.fly f).flips = s.flips := rfl
@[simp] theorem State.fly_tensors : (s.fly f).tensors = s.tensors := rfl
@[simp] theorem State.fly_tops : (s.fly f).tops = s.tops := rfl
@[simp] theorem State.fly_mem : (s.fly f).mem = s.mem := rfl
@[simp] theorem State.fly_hist : (s.fly f).hist = s.hist := rfl
@[simp] theorem State.fly_releases : (s.fly f).releases = s.releases := rfl
@[simp] theorem State.fly_seq : (s.fly f).seq = s.seq := rfl
@[simp] theorem State.fly_timeBase : (s.fly f).timeBase = s.timeBase := rfl
@[simp] theorem State.fly_cycle : (s.fly f).cycle = s.cycle := rfl
@[simp] theorem State.fly_free : (s.fly f).free = s.free := rfl
@[simp] theorem State.fly_ids : (s.fly f).ids = s.ids := rfl
@[simp] theorem State.fly_agenda : (s.fly f).agenda = s.agenda := rfl
@[simp] theorem State.fly_resolving : (s.fly f).resolving = s.resolving := rfl
@[simp] theorem State.fly_passed : (s.fly f).passed = s.passed := rfl
@[simp] theorem State.fly_ceilings : (s.fly f).ceilings = s.ceilings := rfl
@[simp] theorem State.fly_late : (s.fly f).late = s.late := rfl
@[simp] theorem State.fly_hartReads : (s.fly f).hartReads = s.hartReads := rfl
@[simp] theorem State.fly_disabled : (s.fly f).disabled = s.disabled := rfl
@[simp] theorem State.fly_lag : (s.fly f).lag = s.lag := rfl
@[simp] theorem State.fly_handles : (s.fly f).handles = s.handles := rfl
@[simp] theorem State.fly_hartOrder : (s.fly f).hartOrder = s.hartOrder := rfl

end

/-! ### holding -/

section
variable (s : State) (ws : List IWord)

@[simp] theorem State.holding_coreId : (s.holding ws).coreId = s.coreId := rfl
@[simp] theorem State.holding_slotId : (s.holding ws).slotId = s.slotId := rfl
@[simp] theorem State.holding_slot : (s.holding ws).slot = { s.slot with ir := ws } := rfl
@[simp] theorem State.holding_core : (s.holding ws).core = s.core := rfl
@[simp] theorem State.holding_cores : (s.holding ws).cores = s.cores := rfl
@[simp] theorem State.holding_clusterTlb : (s.holding ws).clusterTlb = s.clusterTlb := rfl
@[simp] theorem State.holding_kernels : (s.holding ws).kernels = s.kernels := rfl
@[simp] theorem State.holding_flight : (s.holding ws).flight = s.flight := rfl
@[simp] theorem State.holding_gangs : (s.holding ws).gangs = s.gangs := rfl
@[simp] theorem State.holding_pages : (s.holding ws).pages = s.pages := rfl
@[simp] theorem State.holding_redirects : (s.holding ws).redirects = s.redirects := rfl
@[simp] theorem State.holding_ctls : (s.holding ws).ctls = s.ctls := rfl
@[simp] theorem State.holding_events : (s.holding ws).events = s.events := rfl
@[simp] theorem State.holding_flips : (s.holding ws).flips = s.flips := rfl
@[simp] theorem State.holding_tensors : (s.holding ws).tensors = s.tensors := rfl
@[simp] theorem State.holding_tops : (s.holding ws).tops = s.tops := rfl
@[simp] theorem State.holding_mem : (s.holding ws).mem = s.mem := rfl
@[simp] theorem State.holding_hist : (s.holding ws).hist = s.hist := rfl
@[simp] theorem State.holding_releases : (s.holding ws).releases = s.releases := rfl
@[simp] theorem State.holding_seq : (s.holding ws).seq = s.seq := rfl
@[simp] theorem State.holding_timeBase : (s.holding ws).timeBase = s.timeBase := rfl
@[simp] theorem State.holding_cycle : (s.holding ws).cycle = s.cycle := rfl
@[simp] theorem State.holding_free : (s.holding ws).free = s.free := rfl
@[simp] theorem State.holding_ids : (s.holding ws).ids = s.ids := rfl
@[simp] theorem State.holding_agenda : (s.holding ws).agenda = s.agenda := rfl
@[simp] theorem State.holding_resolving : (s.holding ws).resolving = s.resolving := rfl
@[simp] theorem State.holding_passed : (s.holding ws).passed = s.passed := rfl
@[simp] theorem State.holding_ceilings : (s.holding ws).ceilings = s.ceilings := rfl
@[simp] theorem State.holding_late : (s.holding ws).late = s.late := rfl
@[simp] theorem State.holding_hartReads : (s.holding ws).hartReads = s.hartReads := rfl
@[simp] theorem State.holding_disabled : (s.holding ws).disabled = s.disabled := rfl
@[simp] theorem State.holding_lag : (s.holding ws).lag = s.lag := rfl
@[simp] theorem State.holding_handles : (s.holding ws).handles = s.handles := rfl
@[simp] theorem State.holding_hartOrder : (s.holding ws).hartOrder = s.hartOrder := rfl

end

/-! ### advance -/

section
variable (s : State) (n : Nat)

@[simp] theorem State.advance_coreId : (s.advance n).coreId = s.coreId := rfl
@[simp] theorem State.advance_slotId : (s.advance n).slotId = s.slotId := rfl
@[simp] theorem State.advance_slot : (s.advance n).slot = (s.slot.advance n).unrefused s.slot.pc := rfl
@[simp] theorem State.advance_core : (s.advance n).core = s.core := rfl
@[simp] theorem State.advance_cores : (s.advance n).cores = s.cores := rfl
@[simp] theorem State.advance_clusterTlb : (s.advance n).clusterTlb = s.clusterTlb := rfl
@[simp] theorem State.advance_kernels : (s.advance n).kernels = s.kernels := rfl
@[simp] theorem State.advance_flight : (s.advance n).flight = s.flight := rfl
@[simp] theorem State.advance_gangs : (s.advance n).gangs = s.gangs := rfl
@[simp] theorem State.advance_pages : (s.advance n).pages = s.pages := rfl
@[simp] theorem State.advance_redirects : (s.advance n).redirects = s.redirects := rfl
@[simp] theorem State.advance_ctls : (s.advance n).ctls = s.ctls := rfl
@[simp] theorem State.advance_events : (s.advance n).events = s.events := rfl
@[simp] theorem State.advance_flips : (s.advance n).flips = s.flips := rfl
@[simp] theorem State.advance_tensors : (s.advance n).tensors = s.tensors := rfl
@[simp] theorem State.advance_tops : (s.advance n).tops = s.tops := rfl
@[simp] theorem State.advance_mem : (s.advance n).mem = s.mem := rfl
@[simp] theorem State.advance_hist : (s.advance n).hist = s.hist := rfl
@[simp] theorem State.advance_releases : (s.advance n).releases = s.releases := rfl
@[simp] theorem State.advance_seq : (s.advance n).seq = s.seq := rfl
@[simp] theorem State.advance_timeBase : (s.advance n).timeBase = s.timeBase := rfl
@[simp] theorem State.advance_cycle : (s.advance n).cycle = s.cycle := rfl
@[simp] theorem State.advance_free : (s.advance n).free = s.free := rfl
@[simp] theorem State.advance_ids : (s.advance n).ids = s.ids := rfl
@[simp] theorem State.advance_agenda : (s.advance n).agenda = s.agenda := rfl
@[simp] theorem State.advance_resolving : (s.advance n).resolving = s.resolving := rfl
@[simp] theorem State.advance_passed : (s.advance n).passed = s.passed := rfl
@[simp] theorem State.advance_ceilings : (s.advance n).ceilings = s.ceilings := rfl
@[simp] theorem State.advance_late : (s.advance n).late = s.late := rfl
@[simp] theorem State.advance_hartReads : (s.advance n).hartReads = s.hartReads := rfl
@[simp] theorem State.advance_disabled : (s.advance n).disabled = s.disabled := rfl
@[simp] theorem State.advance_lag : (s.advance n).lag = s.lag := rfl
@[simp] theorem State.advance_handles : (s.advance n).handles = s.handles := rfl
@[simp] theorem State.advance_hartOrder : (s.advance n).hartOrder = s.hartOrder := rfl

end

/-! ### jump -/

section
variable (s : State) (a : Word)

@[simp] theorem State.jump_coreId : (s.jump a).coreId = s.coreId := rfl
@[simp] theorem State.jump_slotId : (s.jump a).slotId = s.slotId := rfl
@[simp] theorem State.jump_slot : (s.jump a).slot = (s.slot.jump a).unrefused s.slot.pc := rfl
@[simp] theorem State.jump_core : (s.jump a).core = s.core := rfl
@[simp] theorem State.jump_cores : (s.jump a).cores = s.cores := rfl
@[simp] theorem State.jump_clusterTlb : (s.jump a).clusterTlb = s.clusterTlb := rfl
@[simp] theorem State.jump_kernels : (s.jump a).kernels = s.kernels := rfl
@[simp] theorem State.jump_flight : (s.jump a).flight = s.flight := rfl
@[simp] theorem State.jump_gangs : (s.jump a).gangs = s.gangs := rfl
@[simp] theorem State.jump_pages : (s.jump a).pages = s.pages := rfl
@[simp] theorem State.jump_redirects : (s.jump a).redirects = s.redirects := rfl
@[simp] theorem State.jump_ctls : (s.jump a).ctls = s.ctls := rfl
@[simp] theorem State.jump_events : (s.jump a).events = s.events := rfl
@[simp] theorem State.jump_flips : (s.jump a).flips = s.flips := rfl
@[simp] theorem State.jump_tensors : (s.jump a).tensors = s.tensors := rfl
@[simp] theorem State.jump_tops : (s.jump a).tops = s.tops := rfl
@[simp] theorem State.jump_mem : (s.jump a).mem = s.mem := rfl
@[simp] theorem State.jump_hist : (s.jump a).hist = s.hist := rfl
@[simp] theorem State.jump_releases : (s.jump a).releases = s.releases := rfl
@[simp] theorem State.jump_seq : (s.jump a).seq = s.seq := rfl
@[simp] theorem State.jump_timeBase : (s.jump a).timeBase = s.timeBase := rfl
@[simp] theorem State.jump_cycle : (s.jump a).cycle = s.cycle := rfl
@[simp] theorem State.jump_free : (s.jump a).free = s.free := rfl
@[simp] theorem State.jump_ids : (s.jump a).ids = s.ids := rfl
@[simp] theorem State.jump_agenda : (s.jump a).agenda = s.agenda := rfl
@[simp] theorem State.jump_resolving : (s.jump a).resolving = s.resolving := rfl
@[simp] theorem State.jump_passed : (s.jump a).passed = s.passed := rfl
@[simp] theorem State.jump_ceilings : (s.jump a).ceilings = s.ceilings := rfl
@[simp] theorem State.jump_late : (s.jump a).late = s.late := rfl
@[simp] theorem State.jump_hartReads : (s.jump a).hartReads = s.hartReads := rfl
@[simp] theorem State.jump_disabled : (s.jump a).disabled = s.disabled := rfl
@[simp] theorem State.jump_lag : (s.jump a).lag = s.lag := rfl
@[simp] theorem State.jump_handles : (s.jump a).handles = s.handles := rfl
@[simp] theorem State.jump_hartOrder : (s.jump a).hartOrder = s.hartOrder := rfl

end

/-! ### completed -/

section
variable (s : State)

@[simp] theorem State.completed_coreId : s.completed.coreId = s.coreId := rfl
@[simp] theorem State.completed_slotId : s.completed.slotId = s.slotId := rfl
@[simp] theorem State.completed_slot : s.completed.slot = s.slot.completed s.cycle := rfl
@[simp] theorem State.completed_core : s.completed.core = s.core := rfl
@[simp] theorem State.completed_cores : s.completed.cores = s.cores := rfl
@[simp] theorem State.completed_clusterTlb : s.completed.clusterTlb = s.clusterTlb := rfl
@[simp] theorem State.completed_kernels : s.completed.kernels = s.kernels := rfl
@[simp] theorem State.completed_flight : s.completed.flight = s.flight := rfl
@[simp] theorem State.completed_gangs : s.completed.gangs = s.gangs := rfl
@[simp] theorem State.completed_pages : s.completed.pages = s.pages := rfl
@[simp] theorem State.completed_redirects : s.completed.redirects = s.redirects := rfl
@[simp] theorem State.completed_ctls : s.completed.ctls = s.ctls := rfl
@[simp] theorem State.completed_events : s.completed.events = s.events := rfl
@[simp] theorem State.completed_flips : s.completed.flips = s.flips := rfl
@[simp] theorem State.completed_tensors : s.completed.tensors = s.tensors := rfl
@[simp] theorem State.completed_tops : s.completed.tops = s.tops := rfl
@[simp] theorem State.completed_mem : s.completed.mem = s.mem := rfl
@[simp] theorem State.completed_hist : s.completed.hist = s.hist := rfl
@[simp] theorem State.completed_releases : s.completed.releases = s.releases := rfl
@[simp] theorem State.completed_seq : s.completed.seq = s.seq := rfl
@[simp] theorem State.completed_timeBase : s.completed.timeBase = s.timeBase := rfl
@[simp] theorem State.completed_cycle : s.completed.cycle = s.cycle := rfl
@[simp] theorem State.completed_free : s.completed.free = s.free := rfl
@[simp] theorem State.completed_ids : s.completed.ids = s.ids := rfl
@[simp] theorem State.completed_agenda : s.completed.agenda = s.agenda := rfl
@[simp] theorem State.completed_resolving : s.completed.resolving = s.resolving := rfl
@[simp] theorem State.completed_passed : s.completed.passed = s.passed := rfl
@[simp] theorem State.completed_ceilings : s.completed.ceilings = s.ceilings := rfl
@[simp] theorem State.completed_late : s.completed.late = s.late := rfl
@[simp] theorem State.completed_hartReads : s.completed.hartReads = s.hartReads := rfl
@[simp] theorem State.completed_disabled : s.completed.disabled = s.disabled := rfl
@[simp] theorem State.completed_lag : s.completed.lag = s.lag := rfl

end

/-! ### closeBody -/

section
variable (s : State)

@[simp] theorem State.closeBody_coreId : s.closeBody.coreId = s.coreId := rfl
@[simp] theorem State.closeBody_slotId : s.closeBody.slotId = s.slotId := rfl
@[simp] theorem State.closeBody_slot : s.closeBody.slot = { s.slot with seq := s.slot.seq.close } := rfl
@[simp] theorem State.closeBody_core : s.closeBody.core = s.core := rfl
@[simp] theorem State.closeBody_cores : s.closeBody.cores = s.cores := rfl
@[simp] theorem State.closeBody_clusterTlb : s.closeBody.clusterTlb = s.clusterTlb := rfl
@[simp] theorem State.closeBody_kernels : s.closeBody.kernels = s.kernels := rfl
@[simp] theorem State.closeBody_flight : s.closeBody.flight = s.flight := rfl
@[simp] theorem State.closeBody_gangs : s.closeBody.gangs = s.gangs := rfl
@[simp] theorem State.closeBody_pages : s.closeBody.pages = s.pages := rfl
@[simp] theorem State.closeBody_redirects : s.closeBody.redirects = s.redirects := rfl
@[simp] theorem State.closeBody_ctls : s.closeBody.ctls = s.ctls := rfl
@[simp] theorem State.closeBody_events : s.closeBody.events = s.events := rfl
@[simp] theorem State.closeBody_flips : s.closeBody.flips = s.flips := rfl
@[simp] theorem State.closeBody_tensors : s.closeBody.tensors = s.tensors := rfl
@[simp] theorem State.closeBody_tops : s.closeBody.tops = s.tops := rfl
@[simp] theorem State.closeBody_mem : s.closeBody.mem = s.mem := rfl
@[simp] theorem State.closeBody_hist : s.closeBody.hist = s.hist := rfl
@[simp] theorem State.closeBody_releases : s.closeBody.releases = s.releases := rfl
@[simp] theorem State.closeBody_seq : s.closeBody.seq = s.seq := rfl
@[simp] theorem State.closeBody_timeBase : s.closeBody.timeBase = s.timeBase := rfl
@[simp] theorem State.closeBody_cycle : s.closeBody.cycle = s.cycle := rfl
@[simp] theorem State.closeBody_free : s.closeBody.free = s.free := rfl
@[simp] theorem State.closeBody_ids : s.closeBody.ids = s.ids := rfl
@[simp] theorem State.closeBody_agenda : s.closeBody.agenda = s.agenda := rfl
@[simp] theorem State.closeBody_resolving : s.closeBody.resolving = s.resolving := rfl
@[simp] theorem State.closeBody_passed : s.closeBody.passed = s.passed := rfl
@[simp] theorem State.closeBody_ceilings : s.closeBody.ceilings = s.ceilings := rfl
@[simp] theorem State.closeBody_late : s.closeBody.late = s.late := rfl
@[simp] theorem State.closeBody_hartReads : s.closeBody.hartReads = s.hartReads := rfl
@[simp] theorem State.closeBody_disabled : s.closeBody.disabled = s.disabled := rfl
@[simp] theorem State.closeBody_lag : s.closeBody.lag = s.lag := rfl

end

/-! ### storeRec -/

section
variable (s : State) (c : Agent) (key : Nat) (data : List (Option Byte)) (x : Option Scope) (b : Option (Nat × Nat × Nat × Bool))

@[simp] theorem State.storeRec_coreId : (s.storeRec c key data x b).coreId = s.coreId := rfl
@[simp] theorem State.storeRec_slotId : (s.storeRec c key data x b).slotId = s.slotId := rfl
@[simp] theorem State.storeRec_slot : (s.storeRec c key data x b).slot = s.slot := rfl
@[simp] theorem State.storeRec_core : (s.storeRec c key data x b).core = s.core := rfl
@[simp] theorem State.storeRec_cores : (s.storeRec c key data x b).cores = s.cores := rfl
@[simp] theorem State.storeRec_clusterTlb : (s.storeRec c key data x b).clusterTlb = s.clusterTlb := rfl
@[simp] theorem State.storeRec_kernels : (s.storeRec c key data x b).kernels = s.kernels := rfl
@[simp] theorem State.storeRec_flight : (s.storeRec c key data x b).flight = s.flight := rfl
@[simp] theorem State.storeRec_gangs : (s.storeRec c key data x b).gangs = s.gangs := rfl
@[simp] theorem State.storeRec_pages : (s.storeRec c key data x b).pages = s.pages := rfl
@[simp] theorem State.storeRec_redirects : (s.storeRec c key data x b).redirects = s.redirects := rfl
@[simp] theorem State.storeRec_ctls : (s.storeRec c key data x b).ctls = s.ctls := rfl
@[simp] theorem State.storeRec_events : (s.storeRec c key data x b).events = s.events := rfl
@[simp] theorem State.storeRec_flips : (s.storeRec c key data x b).flips = s.flips := rfl
@[simp] theorem State.storeRec_tensors : (s.storeRec c key data x b).tensors = s.tensors := rfl
@[simp] theorem State.storeRec_tops : (s.storeRec c key data x b).tops = s.tops := rfl
@[simp] theorem State.storeRec_mem : (s.storeRec c key data x b).mem = Memory.setSome s.mem key data := rfl
@[simp] theorem State.storeRec_releases : (s.storeRec c key data x b).releases = s.releases := rfl
@[simp] theorem State.storeRec_seq : (s.storeRec c key data x b).seq = s.seq + 1 := rfl
@[simp] theorem State.storeRec_timeBase : (s.storeRec c key data x b).timeBase = s.timeBase := rfl
@[simp] theorem State.storeRec_cycle : (s.storeRec c key data x b).cycle = s.cycle := rfl
@[simp] theorem State.storeRec_free : (s.storeRec c key data x b).free = s.free := rfl
@[simp] theorem State.storeRec_ids : (s.storeRec c key data x b).ids = s.ids := rfl
@[simp] theorem State.storeRec_agenda : (s.storeRec c key data x b).agenda = s.agenda := rfl
@[simp] theorem State.storeRec_resolving : (s.storeRec c key data x b).resolving = s.resolving := rfl
@[simp] theorem State.storeRec_passed : (s.storeRec c key data x b).passed = s.passed := rfl
@[simp] theorem State.storeRec_ceilings : (s.storeRec c key data x b).ceilings = s.ceilings := rfl
@[simp] theorem State.storeRec_late : (s.storeRec c key data x b).late = s.late := rfl
@[simp] theorem State.storeRec_hartReads : (s.storeRec c key data x b).hartReads = s.hartReads := rfl
@[simp] theorem State.storeRec_disabled : (s.storeRec c key data x b).disabled = s.disabled := rfl
@[simp] theorem State.storeRec_lag : (s.storeRec c key data x b).lag = s.lag := rfl
@[simp] theorem State.storeRec_handles : (s.storeRec c key data x b).handles = s.handles := rfl
@[simp] theorem State.storeRec_hartOrder : (s.storeRec c key data x b).hartOrder = s.hartOrder := rfl

end

/-! ### release -/

section
variable (s : State) (c : Agent) (x : Scope)

@[simp] theorem State.release_coreId : (s.release c x).coreId = s.coreId := rfl
@[simp] theorem State.release_slotId : (s.release c x).slotId = s.slotId := rfl
@[simp] theorem State.release_slot : (s.release c x).slot = s.slot := rfl
@[simp] theorem State.release_core : (s.release c x).core = s.core := rfl
@[simp] theorem State.release_cores : (s.release c x).cores = s.cores := rfl
@[simp] theorem State.release_clusterTlb : (s.release c x).clusterTlb = s.clusterTlb := rfl
@[simp] theorem State.release_kernels : (s.release c x).kernels = s.kernels := rfl
@[simp] theorem State.release_flight : (s.release c x).flight = s.flight := rfl
@[simp] theorem State.release_gangs : (s.release c x).gangs = s.gangs := rfl
@[simp] theorem State.release_pages : (s.release c x).pages = s.pages := rfl
@[simp] theorem State.release_redirects : (s.release c x).redirects = s.redirects := rfl
@[simp] theorem State.release_ctls : (s.release c x).ctls = s.ctls := rfl
@[simp] theorem State.release_events : (s.release c x).events = s.events := rfl
@[simp] theorem State.release_flips : (s.release c x).flips = s.flips := rfl
@[simp] theorem State.release_tensors : (s.release c x).tensors = s.tensors := rfl
@[simp] theorem State.release_tops : (s.release c x).tops = s.tops := rfl
@[simp] theorem State.release_mem : (s.release c x).mem = s.mem := rfl
@[simp] theorem State.release_hist : (s.release c x).hist = s.hist := rfl
@[simp] theorem State.release_seq : (s.release c x).seq = s.seq + 1 := rfl
@[simp] theorem State.release_timeBase : (s.release c x).timeBase = s.timeBase := rfl
@[simp] theorem State.release_cycle : (s.release c x).cycle = s.cycle := rfl
@[simp] theorem State.release_free : (s.release c x).free = s.free := rfl
@[simp] theorem State.release_ids : (s.release c x).ids = s.ids := rfl
@[simp] theorem State.release_agenda : (s.release c x).agenda = s.agenda := rfl
@[simp] theorem State.release_resolving : (s.release c x).resolving = s.resolving := rfl
@[simp] theorem State.release_passed : (s.release c x).passed = s.passed := rfl
@[simp] theorem State.release_ceilings : (s.release c x).ceilings = s.ceilings := rfl
@[simp] theorem State.release_late : (s.release c x).late = s.late := rfl
@[simp] theorem State.release_hartReads : (s.release c x).hartReads = s.hartReads := rfl
@[simp] theorem State.release_disabled : (s.release c x).disabled = s.disabled := rfl
@[simp] theorem State.release_lag : (s.release c x).lag = s.lag := rfl
@[simp] theorem State.release_handles : (s.release c x).handles = s.handles := rfl
@[simp] theorem State.release_hartOrder : (s.release c x).hartOrder = s.hartOrder := rfl

end

/-! ### acquireOf -/

section
variable (s : State) (c : Agent) (y : Scope) (p : WriteRec → Bool)

@[simp] theorem State.acquireOf_coreId : (s.acquireOf c y p).coreId = s.coreId := rfl
@[simp] theorem State.acquireOf_slotId : (s.acquireOf c y p).slotId = s.slotId := rfl
@[simp] theorem State.acquireOf_slot : (s.acquireOf c y p).slot = s.slot := rfl
@[simp] theorem State.acquireOf_core : (s.acquireOf c y p).core = s.core := rfl
@[simp] theorem State.acquireOf_cores : (s.acquireOf c y p).cores = s.cores := rfl
@[simp] theorem State.acquireOf_clusterTlb : (s.acquireOf c y p).clusterTlb = s.clusterTlb := rfl
@[simp] theorem State.acquireOf_kernels : (s.acquireOf c y p).kernels = s.kernels := rfl
@[simp] theorem State.acquireOf_flight : (s.acquireOf c y p).flight = s.flight := rfl
@[simp] theorem State.acquireOf_gangs : (s.acquireOf c y p).gangs = s.gangs := rfl
@[simp] theorem State.acquireOf_pages : (s.acquireOf c y p).pages = s.pages := rfl
@[simp] theorem State.acquireOf_redirects : (s.acquireOf c y p).redirects = s.redirects := rfl
@[simp] theorem State.acquireOf_ctls : (s.acquireOf c y p).ctls = s.ctls := rfl
@[simp] theorem State.acquireOf_events : (s.acquireOf c y p).events = s.events := rfl
@[simp] theorem State.acquireOf_flips : (s.acquireOf c y p).flips = s.flips := rfl
@[simp] theorem State.acquireOf_tensors : (s.acquireOf c y p).tensors = s.tensors := rfl
@[simp] theorem State.acquireOf_tops : (s.acquireOf c y p).tops = s.tops := rfl
@[simp] theorem State.acquireOf_mem : (s.acquireOf c y p).mem = s.mem := rfl
@[simp] theorem State.acquireOf_releases : (s.acquireOf c y p).releases = s.releases := rfl
@[simp] theorem State.acquireOf_seq : (s.acquireOf c y p).seq = s.seq := rfl
@[simp] theorem State.acquireOf_timeBase : (s.acquireOf c y p).timeBase = s.timeBase := rfl
@[simp] theorem State.acquireOf_cycle : (s.acquireOf c y p).cycle = s.cycle := rfl
@[simp] theorem State.acquireOf_free : (s.acquireOf c y p).free = s.free := rfl
@[simp] theorem State.acquireOf_ids : (s.acquireOf c y p).ids = s.ids := rfl
@[simp] theorem State.acquireOf_agenda : (s.acquireOf c y p).agenda = s.agenda := rfl
@[simp] theorem State.acquireOf_resolving : (s.acquireOf c y p).resolving = s.resolving := rfl
@[simp] theorem State.acquireOf_passed : (s.acquireOf c y p).passed = s.passed := rfl
@[simp] theorem State.acquireOf_ceilings : (s.acquireOf c y p).ceilings = s.ceilings := rfl
@[simp] theorem State.acquireOf_late : (s.acquireOf c y p).late = s.late := rfl
@[simp] theorem State.acquireOf_hartReads : (s.acquireOf c y p).hartReads = s.hartReads := rfl
@[simp] theorem State.acquireOf_disabled : (s.acquireOf c y p).disabled = s.disabled := rfl
@[simp] theorem State.acquireOf_lag : (s.acquireOf c y p).lag = s.lag := rfl
@[simp] theorem State.acquireOf_handles : (s.acquireOf c y p).handles = s.handles := rfl
@[simp] theorem State.acquireOf_hartOrder : (s.acquireOf c y p).hartOrder = s.hartOrder := rfl

end

/-! ### putLate -/

section
variable (s : State) (l : LateLoad) (x : VReg)

@[simp] theorem State.putLate_coreId : (s.putLate l x).coreId = s.coreId := rfl
@[simp] theorem State.putLate_slotId : (s.putLate l x).slotId = s.slotId := rfl
@[simp] theorem State.putLate_slot : (s.putLate l x).slot = s.slot.withLate l x := rfl
@[simp] theorem State.putLate_core : (s.putLate l x).core = s.core := rfl
@[simp] theorem State.putLate_cores : (s.putLate l x).cores = s.cores := rfl
@[simp] theorem State.putLate_clusterTlb : (s.putLate l x).clusterTlb = s.clusterTlb := rfl
@[simp] theorem State.putLate_kernels : (s.putLate l x).kernels = s.kernels := rfl
@[simp] theorem State.putLate_flight : (s.putLate l x).flight = s.flight := rfl
@[simp] theorem State.putLate_gangs : (s.putLate l x).gangs = s.gangs := rfl
@[simp] theorem State.putLate_pages : (s.putLate l x).pages = s.pages := rfl
@[simp] theorem State.putLate_redirects : (s.putLate l x).redirects = s.redirects := rfl
@[simp] theorem State.putLate_ctls : (s.putLate l x).ctls = s.ctls := rfl
@[simp] theorem State.putLate_events : (s.putLate l x).events = s.events := rfl
@[simp] theorem State.putLate_flips : (s.putLate l x).flips = s.flips := rfl
@[simp] theorem State.putLate_tensors : (s.putLate l x).tensors = s.tensors := rfl
@[simp] theorem State.putLate_tops : (s.putLate l x).tops = s.tops := rfl
@[simp] theorem State.putLate_mem : (s.putLate l x).mem = s.mem := rfl
@[simp] theorem State.putLate_hist : (s.putLate l x).hist = s.hist := rfl
@[simp] theorem State.putLate_releases : (s.putLate l x).releases = s.releases := rfl
@[simp] theorem State.putLate_seq : (s.putLate l x).seq = s.seq := rfl
@[simp] theorem State.putLate_timeBase : (s.putLate l x).timeBase = s.timeBase := rfl
@[simp] theorem State.putLate_cycle : (s.putLate l x).cycle = s.cycle := rfl
@[simp] theorem State.putLate_free : (s.putLate l x).free = s.free := rfl
@[simp] theorem State.putLate_ids : (s.putLate l x).ids = s.ids := rfl
@[simp] theorem State.putLate_agenda : (s.putLate l x).agenda = s.agenda := rfl
@[simp] theorem State.putLate_resolving : (s.putLate l x).resolving = s.resolving := rfl
@[simp] theorem State.putLate_passed : (s.putLate l x).passed = s.passed := rfl
@[simp] theorem State.putLate_ceilings : (s.putLate l x).ceilings = s.ceilings := rfl
@[simp] theorem State.putLate_late : (s.putLate l x).late = s.late := rfl
@[simp] theorem State.putLate_hartReads : (s.putLate l x).hartReads = s.hartReads := rfl
@[simp] theorem State.putLate_disabled : (s.putLate l x).disabled = s.disabled := rfl
@[simp] theorem State.putLate_lag : (s.putLate l x).lag = s.lag := rfl
@[simp] theorem State.putLate_handles : (s.putLate l x).handles = s.handles := rfl
@[simp] theorem State.putLate_hartOrder : (s.putLate l x).hartOrder = s.hartOrder := rfl

end

/-! ### hartReadsOf -/

section
variable (s : State) (pkg hart addr : Nat) (data : List Byte)

@[simp] theorem State.hartReadsOf_coreId : (s.hartReadsOf pkg hart addr data).coreId = s.coreId := rfl
@[simp] theorem State.hartReadsOf_slotId : (s.hartReadsOf pkg hart addr data).slotId = s.slotId := rfl
@[simp] theorem State.hartReadsOf_slot : (s.hartReadsOf pkg hart addr data).slot = s.slot := rfl
@[simp] theorem State.hartReadsOf_core : (s.hartReadsOf pkg hart addr data).core = s.core := rfl
@[simp] theorem State.hartReadsOf_cores : (s.hartReadsOf pkg hart addr data).cores = s.cores := rfl
@[simp] theorem State.hartReadsOf_clusterTlb : (s.hartReadsOf pkg hart addr data).clusterTlb = s.clusterTlb := rfl
@[simp] theorem State.hartReadsOf_kernels : (s.hartReadsOf pkg hart addr data).kernels = s.kernels := rfl
@[simp] theorem State.hartReadsOf_flight : (s.hartReadsOf pkg hart addr data).flight = s.flight := rfl
@[simp] theorem State.hartReadsOf_gangs : (s.hartReadsOf pkg hart addr data).gangs = s.gangs := rfl
@[simp] theorem State.hartReadsOf_pages : (s.hartReadsOf pkg hart addr data).pages = s.pages := rfl
@[simp] theorem State.hartReadsOf_redirects : (s.hartReadsOf pkg hart addr data).redirects = s.redirects := rfl
@[simp] theorem State.hartReadsOf_ctls : (s.hartReadsOf pkg hart addr data).ctls = s.ctls := rfl
@[simp] theorem State.hartReadsOf_events : (s.hartReadsOf pkg hart addr data).events = s.events := rfl
@[simp] theorem State.hartReadsOf_flips : (s.hartReadsOf pkg hart addr data).flips = s.flips := rfl
@[simp] theorem State.hartReadsOf_tensors : (s.hartReadsOf pkg hart addr data).tensors = s.tensors := rfl
@[simp] theorem State.hartReadsOf_tops : (s.hartReadsOf pkg hart addr data).tops = s.tops := rfl
@[simp] theorem State.hartReadsOf_mem : (s.hartReadsOf pkg hart addr data).mem = s.mem := rfl
@[simp] theorem State.hartReadsOf_hist : (s.hartReadsOf pkg hart addr data).hist = s.hist := rfl
@[simp] theorem State.hartReadsOf_releases : (s.hartReadsOf pkg hart addr data).releases = s.releases := rfl
@[simp] theorem State.hartReadsOf_seq : (s.hartReadsOf pkg hart addr data).seq = s.seq := rfl
@[simp] theorem State.hartReadsOf_timeBase : (s.hartReadsOf pkg hart addr data).timeBase = s.timeBase := rfl
@[simp] theorem State.hartReadsOf_cycle : (s.hartReadsOf pkg hart addr data).cycle = s.cycle := rfl
@[simp] theorem State.hartReadsOf_free : (s.hartReadsOf pkg hart addr data).free = s.free := rfl
@[simp] theorem State.hartReadsOf_ids : (s.hartReadsOf pkg hart addr data).ids = s.ids := rfl
@[simp] theorem State.hartReadsOf_agenda : (s.hartReadsOf pkg hart addr data).agenda = s.agenda := rfl
@[simp] theorem State.hartReadsOf_resolving : (s.hartReadsOf pkg hart addr data).resolving = s.resolving := rfl
@[simp] theorem State.hartReadsOf_passed : (s.hartReadsOf pkg hart addr data).passed = s.passed := rfl
@[simp] theorem State.hartReadsOf_ceilings : (s.hartReadsOf pkg hart addr data).ceilings = s.ceilings := rfl
@[simp] theorem State.hartReadsOf_late : (s.hartReadsOf pkg hart addr data).late = s.late := rfl
@[simp] theorem State.hartReadsOf_hartReads : (s.hartReadsOf pkg hart addr data).hartReads = (pkg, hart, addr, data) :: s.hartReads := rfl
@[simp] theorem State.hartReadsOf_disabled : (s.hartReadsOf pkg hart addr data).disabled = s.disabled := rfl
@[simp] theorem State.hartReadsOf_lag : (s.hartReadsOf pkg hart addr data).lag = s.lag := rfl
@[simp] theorem State.hartReadsOf_handles : (s.hartReadsOf pkg hart addr data).handles = s.handles := rfl
@[simp] theorem State.hartReadsOf_hartOrder : (s.hartReadsOf pkg hart addr data).hartOrder = s.hartOrder := rfl

end

/-! ### given -/

section
variable (s : State)

@[simp] theorem State.given_coreId : (s.given).coreId = s.coreId := rfl
@[simp] theorem State.given_slotId : (s.given).slotId = s.slotId := rfl
@[simp] theorem State.given_slot : (s.given).slot = { s.slot with par := { s.slot.par with issues := true } } := rfl
@[simp] theorem State.given_core : (s.given).core = { s.core with lastIssued := some s.slotId } := rfl
@[simp] theorem State.given_cores : (s.given).cores = s.cores := rfl
@[simp] theorem State.given_clusterTlb : (s.given).clusterTlb = s.clusterTlb := rfl
@[simp] theorem State.given_kernels : (s.given).kernels = s.kernels := rfl
@[simp] theorem State.given_flight : (s.given).flight = s.flight := rfl
@[simp] theorem State.given_gangs : (s.given).gangs = s.gangs := rfl
@[simp] theorem State.given_pages : (s.given).pages = s.pages := rfl
@[simp] theorem State.given_redirects : (s.given).redirects = s.redirects := rfl
@[simp] theorem State.given_ctls : (s.given).ctls = s.ctls := rfl
@[simp] theorem State.given_events : (s.given).events = s.events := rfl
@[simp] theorem State.given_flips : (s.given).flips = s.flips := rfl
@[simp] theorem State.given_tensors : (s.given).tensors = s.tensors := rfl
@[simp] theorem State.given_tops : (s.given).tops = s.tops := rfl
@[simp] theorem State.given_mem : (s.given).mem = s.mem := rfl
@[simp] theorem State.given_hist : (s.given).hist = s.hist := rfl
@[simp] theorem State.given_releases : (s.given).releases = s.releases := rfl
@[simp] theorem State.given_seq : (s.given).seq = s.seq := rfl
@[simp] theorem State.given_timeBase : (s.given).timeBase = s.timeBase := rfl
@[simp] theorem State.given_cycle : (s.given).cycle = s.cycle := rfl
@[simp] theorem State.given_free : (s.given).free = s.free := rfl
@[simp] theorem State.given_ids : (s.given).ids = s.ids := rfl
@[simp] theorem State.given_agenda : (s.given).agenda = s.agenda := rfl
@[simp] theorem State.given_resolving : (s.given).resolving = s.resolving := rfl
@[simp] theorem State.given_passed : (s.given).passed = s.passed := rfl
@[simp] theorem State.given_ceilings : (s.given).ceilings = s.ceilings := rfl
@[simp] theorem State.given_late : (s.given).late = s.late := rfl
@[simp] theorem State.given_hartReads : (s.given).hartReads = s.hartReads := rfl
@[simp] theorem State.given_disabled : (s.given).disabled = s.disabled := rfl
@[simp] theorem State.given_lag : (s.given).lag = s.lag := rfl
@[simp] theorem State.given_handles : (s.given).handles = s.handles := rfl
@[simp] theorem State.given_hartOrder : (s.given).hartOrder = s.hartOrder := rfl

end

/-! ### The registers of a slot -/

@[simp] theorem Slot.advance_w (x : Slot) (n : Nat) : (x.advance n).w = x.w := by unfold Slot.advance Slot.settlePops; split <;> rfl
@[simp] theorem Slot.advance_v (x : Slot) (n : Nat) : (x.advance n).v = x.v := by unfold Slot.advance Slot.settlePops; split <;> rfl
@[simp] theorem Slot.advance_pc (x : Slot) (n : Nat) : (x.advance n).pc = x.pc + BitVec.ofNat 64 n := by
  unfold Slot.advance Slot.settlePops; split <;> rfl
@[simp] theorem Slot.advance_status (x : Slot) (n : Nat) : (x.advance n).status = x.status := by
  unfold Slot.advance Slot.settlePops; split <;> rfl
@[simp] theorem Slot.advance_cue (x : Slot) (n : Nat) : (x.advance n).cue = x.cue := by
  unfold Slot.advance Slot.settlePops; split <;> rfl
@[simp] theorem Slot.jump_w (x : Slot) (a : Word) : (x.jump a).w = x.w := by unfold Slot.jump Slot.settlePops; split <;> rfl
@[simp] theorem Slot.jump_v (x : Slot) (a : Word) : (x.jump a).v = x.v := by unfold Slot.jump Slot.settlePops; split <;> rfl
@[simp] theorem Slot.jump_pc (x : Slot) (a : Word) : (x.jump a).pc = a := by unfold Slot.jump Slot.settlePops; split <;> rfl
@[simp] theorem Slot.jump_status (x : Slot) (a : Word) : (x.jump a).status = x.status := by
  unfold Slot.jump Slot.settlePops; split <;> rfl
@[simp] theorem Slot.jump_cue (x : Slot) (a : Word) : (x.jump a).cue = x.cue := by unfold Slot.jump Slot.settlePops; split <;> rfl
@[simp] theorem Slot.unrefused_w (x : Slot) (a : Word) : (x.unrefused a).w = x.w := rfl
@[simp] theorem Slot.unrefused_v (x : Slot) (a : Word) : (x.unrefused a).v = x.v := rfl
@[simp] theorem Slot.unrefused_pc (x : Slot) (a : Word) : (x.unrefused a).pc = x.pc := rfl
@[simp] theorem Slot.unrefused_status (x : Slot) (a : Word) : (x.unrefused a).status = x.status := rfl
@[simp] theorem Slot.unrefused_cue (x : Slot) (a : Word) : (x.unrefused a).cue = x.cue := rfl
@[simp] theorem Slot.completed_w (x : Slot) (c : Nat) : (x.completed c).w = x.w := by unfold Slot.completed; split <;> rfl
@[simp] theorem Slot.completed_v (x : Slot) (c : Nat) : (x.completed c).v = x.v := by unfold Slot.completed; split <;> rfl
@[simp] theorem Slot.completed_pc (x : Slot) (c : Nat) : (x.completed c).pc = x.pc := by unfold Slot.completed; split <;> rfl
@[simp] theorem Slot.completed_status (x : Slot) (c : Nat) : (x.completed c).status = x.status := by unfold Slot.completed; split <;> rfl
@[simp] theorem Slot.completed_cue (x : Slot) (c : Nat) : (x.completed c).cue = x.cue := by unfold Slot.completed; split <;> rfl

/-- Counting events changes the focused core's counters alone. -/
theorem State.count_eq (s : State) (i n : Nat) :
    s.count i n = { s with core := { s.core with evc := if n = 0 then s.core.evc else countIn s.core.evc i n } } := by
  unfold State.count; split <;> simp [*]

/-- w0 reads as zero (R15). -/
@[simp] theorem wGet_zero (w : Vector Word 24) : wGet w 0 = 0 := rfl
/-- A write to w0 is ignored (R15). -/
@[simp] theorem wSet_zero (w : Vector Word 24) (x : Word) : wSet w 0 x = w := rfl
/-- Another register reads what was written (R15). -/
theorem wGet_wSet (w : Vector Word 24) (n m : Fin 24) (x : Word) :
    wGet (wSet w n x) m = if m ≠ 0 ∧ m = n then x else wGet w m := by
  unfold wGet wSet
  rcases Decidable.em (m = 0) with hm | hm
  · rw [if_pos hm, if_pos hm, if_neg fun h => h.1 hm]
  · rw [if_neg hm, if_neg hm]
    rcases Decidable.em (n = 0) with hn | hn
    · rw [if_pos hn, if_neg fun h => hm (h.2.trans hn)]
    · rw [if_neg hn]
      rcases Decidable.em (m = n) with h | h
      · rw [if_pos ⟨hm, h⟩]; subst h; exact Vector.getElem_set_self m.isLt
      · rw [if_neg fun k => h k.2]
        exact Vector.getElem_set_ne n.isLt m.isLt fun k => h (Fin.ext k).symm

end Sys2Proof.Machine
end

