-- ==== Sys2Proof/Laws/Access.lean ====
section
/-! SUPPORT. What the shared accesses may change: translating, the protection at rest, injections, loads and stores. -/

namespace Sys2Proof.Machine

/-- Two states that hold the same bytes and the same focused context: everything that an access leaves alone when it
stores nothing. -/
def State.Alike (s t : State) : Prop := t.mem = s.mem ∧ t.slot = s.slot ∧ t.coreId = s.coreId ∧ t.slotId = s.slotId

theorem State.Alike.refl (s : State) : s.Alike s := ⟨rfl, rfl, rfl, rfl⟩

theorem State.Alike.trans {s t u : State} (h : s.Alike t) (k : t.Alike u) : s.Alike u :=
  ⟨k.1.trans h.1, k.2.1.trans h.2.1, k.2.2.1.trans h.2.2.1, k.2.2.2.trans h.2.2.2⟩

/-- Folding changes that each leave the bytes and the context alone leaves them alone. -/
theorem State.Alike.foldl {α : Type} (f : State → α → State) (h : ∀ (s : State) (a : α), s.Alike (f s a)) (l : List α) (s : State) :
    s.Alike (l.foldl f s) := by
  induction l generalizing s with
  | nil => exact State.Alike.refl s
  | cons a l ih => exact (h s a).trans (ih (f s a))

/-- Replacing a core leaves the bytes and the context alone. -/
theorem State.setCore_alike (s : State) (c : Nat) (k : Core) : s.Alike (s.setCore c k) := by
  unfold State.setCore; split <;> exact ⟨rfl, rfl, rfl, rfl⟩

/-- Logging an error leaves the bytes and the context alone. -/
theorem State.logError_alike (s : State) (a : ArrayId) (kind : Nat) (addr : Word) (core slot tag : Nat) :
    s.Alike (s.logError a kind addr core slot tag) := ⟨rfl, rfl, rfl, rfl⟩

/-- Loading a translation leaves the bytes and the context alone (R382). -/
theorem State.tlbLoad_alike (s : State) (core : Nat) (e : TlbEntry) : s.Alike (s.tlbLoad core e) := by
  have one : ∀ t u : State, s.Alike t → t.Alike u → s.Alike (if (assocGet [] (clusterId core) t.clusterTlb).contains e then t else u) := by
    intro t u h k
    split
    · exact h
    · exact h.trans k
  have two : s.Alike (if (s.coreAt core).tlb.contains e then s
      else s.setCore core { s.coreAt core with tlb := loadTlb 256 e (s.coreAt core).tlb }) := by
    split
    · exact .refl s
    · exact s.setCore_alike _ _
  exact one _ _ two ⟨rfl, rfl, rfl, rfl⟩

/-- Translating leaves the bytes and the context alone (R381, R382). -/
theorem State.translate_alike (s : State) (core va : Nat) : s.Alike (s.translate core va).2 := by
  have keep : ∀ t : State, s.Alike t → s.Alike (match s.walk core va with
      | .leaf l => (s.walk core va, t.tlbLoad core (l.entry ((s.coreAt core).aspace.extractLsb' 52 12) va))
      | _ => (s.walk core va, t)).2 := by
    intro t h
    split
    · exact h.trans (t.tlbLoad_alike _ _)
    · exact h
  unfold State.translate
  cases hw : s.walk core va <;> simp only [hw] at keep ⊢ <;> split <;> (try split) <;> (try split) <;>
    first
      | exact keep s (.refl s)
      | exact keep s.drew ⟨rfl, rfl, rfl, rfl⟩
      | exact ⟨rfl, rfl, rfl, rfl⟩

/-- An access that meets stored errors leaves the bytes and the context alone (R266). -/
theorem State.checkFlips_alike {s t : State} {c : Agent} {p : Flip → Bool} (h : s.checkFlips c p = .ok t) : s.Alike t := by
  unfold State.checkFlips at h
  split at h
  · cases h; exact .refl s
  · dsimp only at h
    split at h
    · cases h
    · cases h
      have a := State.Alike.foldl (fun s (f : Flip) => s.logErrorOf f.array (if f.array.kind = 5 then 4 else 1) (reportAddr (f.word * 8)) c)
        (fun s f => s.logError_alike _ _ _ _ _ _) (s.flips.filter p) s
      exact ⟨a.1, a.2.1, a.2.2.1, a.2.2.2⟩

/-- The check before reading leaves the bytes and the context alone (R266). -/
theorem State.checkRead_alike {s t : State} {c : Agent} {key n : Nat} (h : s.checkRead c key n = .ok t) : s.Alike t :=
  State.checkFlips_alike h

/-- The check before writing leaves the bytes and the context alone (R266). -/
theorem State.checkWrite_alike {s t : State} {c : Agent} {key n : Nat} (h : s.checkWrite c key n = .ok t) : s.Alike t := by
  obtain ⟨u, e, h⟩ := act_of_bind h
  cases h
  exact (State.checkFlips_alike e).trans ⟨rfl, rfl, rfl, rfl⟩

/-- The reads of a walk leave the bytes and the context alone (R266). -/
theorem State.checkWalk_alike {s t : State} {c : Agent} {core va : Nat} (h : s.checkWalk c core va = .ok t) : s.Alike t := by
  have go : ∀ (p n : Nat) (l : List Nat) (s t : State), l.foldlM (fun s a => do
      s.passage c p n a
      s.checkRead c a 8) s = .ok t → s.Alike t := by
    intro p n l
    induction l with
    | nil => intro s t h; cases h; exact .refl s
    | cons a l ih =>
      intro s t h
      obtain ⟨u, e, h⟩ := act_of_bind h
      obtain ⟨_, -, e⟩ := act_of_bind e
      exact (State.checkRead_alike e).trans (ih u t h)
  unfold State.checkWalk at h
  dsimp only at h
  split at h
  · cases h; exact .refl s
  · exact go _ _ _ s t h

/-- Translating for an access leaves the bytes and the context alone. -/
theorem State.translateFor_alike {s t : State} {c : Agent} {core va : Nat} {w : Walk} (h : s.translateFor c core va = .ok (w, t)) :
    s.Alike t := by
  unfold State.translateFor at h
  split at h
  · have h : (s.translate core va).2 = t := congrArg Prod.snd (Except.ok.inj h)
    exact h ▸ s.translate_alike core va
  · obtain ⟨u, e, h⟩ := act_of_bind h
    have h : (u.translate core va).2 = t := congrArg Prod.snd (Except.ok.inj h)
    exact (State.checkWalk_alike e).trans (h ▸ u.translate_alike core va)

/-- A page that is there leaves the bytes and the context alone. -/
theorem State.answered_alike (s : State) (core va : Nat) : s.Alike (s.answered core va) := by
  unfold State.answered; split <;> exact ⟨rfl, rfl, rfl, rfl⟩

/-- Resolving an address leaves the bytes and the context alone. -/
theorem State.resolve_alike {s t : State} {vec : Bool} {va : Word} {n key : Nat} {k : Acc} (h : s.resolve vec va n k = .ok (key, t)) :
    s.Alike t := by
  have h := act_of_check h
  by_cases w : va.toNat ≥ Config.windowBase
  · rw [if_pos w] at h
    have h : s = t := congrArg Prod.snd (Except.ok.inj (act_of_check (act_of_check h)))
    exact h ▸ .refl s
  · rw [if_neg w] at h
    rcases e : s.translateFor s.self s.coreId va.toNat with _ | ⟨l, u⟩ <;> rw [e] at h
    · exact nomatch h
    rcases l with l | _ | _
    · have h := act_of_check (act_of_check h)
      rcases p : u.passage u.self (pkgOf u.coreId) (dieOf u.coreId % 8) (l.phys va.toNat) <;> rw [p] at h <;> cases h
      exact (State.translateFor_alike e).trans (State.answered_alike _ _ _)
    · exact nomatch act_of_check h
    · exact nomatch h

/-- A stored error leaves the bytes and the context alone. -/
theorem State.flipped_alike (s : State) (f : Flip) : s.Alike (s.flipped f) := by
  unfold State.flipped
  dsimp only
  split <;> exact ⟨rfl, rfl, rfl, rfl⟩

/-- An injection leaves the bytes and the context alone (R370). -/
theorem State.inject_alike (s : State) (key n : Nat) : s.Alike (s.inject key n) := by
  unfold State.inject
  dsimp only
  refine State.Alike.foldl _ (fun s h => ?_) _ s
  exact State.Alike.trans ⟨rfl, rfl, rfl, rfl⟩ (State.Alike.foldl _ State.flipped_alike _ _)

/-- Without stored errors, the check before a read changes nothing. -/
theorem State.checkRead_none {s : State} (h : s.flips = []) (c : Agent) (key n : Nat) : s.checkRead c key n = .ok s := by
  simp [State.checkRead, State.checkFlips, h]

/-- Without stored errors, the check before a write changes nothing. -/
theorem State.checkWrite_none {s : State} (h : s.flips = []) (c : Agent) (key n : Nat) : s.checkWrite c key n = .ok s := by
  have e : s.rewritten key n = s := by
    unfold State.rewritten
    rw [h, List.filter_nil, ← h]
  have f : s.checkFlips c (fun g => g.readByWrite key n) = .ok s := by simp [State.checkFlips, h]
  unfold State.checkWrite
  rw [f]
  exact congrArg Except.ok e

/-- What a store at a key leaves: its bytes in memory, and the context as it was. -/
theorem State.storeKey_spec {s t : State} {c : Agent} {key : Nat} {data : List Byte} {x : Option Scope}
    (h : s.storeKey c key data x = .ok t) :
    t.mem = Memory.setSome s.mem key (data.map some) ∧ t.slot = s.slot ∧ t.coreId = s.coreId ∧ t.slotId = s.slotId := by
  obtain ⟨u, hc, h⟩ := act_of_bind h
  have a := State.checkWrite_alike hc
  cases h
  have b := (u.storeRec c key (data.map some) x none).inject_alike key data.length
  exact ⟨b.1.trans (by rw [State.storeRec_mem, a.1]), b.2.1.trans a.2.1, b.2.2.1.trans a.2.2.1, b.2.2.2.trans a.2.2.2⟩

/-- A load at a chosen point changes no byte and no register. -/
theorem State.loadPoint_alike (s : State) (c : Agent) (key n : Nat) : s.Alike (s.loadPoint c key n).2.2 := by
  unfold State.loadPoint
  dsimp only
  split
  · exact .refl s
  · exact ⟨rfl, rfl, rfl, rfl⟩

/-- A plain load changes no byte and no register. -/
theorem State.loadPlain_alike (s : State) (c : Agent) (key n : Nat) : s.Alike (s.loadPlain c key n).2 := s.loadPoint_alike c key n

/-- Bounding the vector loads that are pending changes no byte and no register. -/
theorem State.bounding_alike (s : State) (key n t : Nat) : s.Alike (s.bounding key n t) := by
  unfold State.bounding; split <;> exact ⟨rfl, rfl, rfl, rfl⟩

/-- The half of a scoped load that comes after them changes no byte and no register. -/
theorem State.halved_alike (s : State) : s.Alike s.halved := by
  unfold State.halved; split <;> exact ⟨rfl, rfl, rfl, rfl⟩

/-- Loading no later than a number changes no byte and no register. -/
theorem State.loadBelow_alike (s : State) (c : Agent) (key n t : Nat) : s.Alike (s.loadBelow c key n t).2 := ⟨rfl, rfl, rfl, rfl⟩

/-- A load of an offloaded instruction changes no byte and no register. -/
theorem State.loadAt_alike (s : State) (pos key n : Nat) : s.Alike (s.loadAt pos key n).2 := by
  unfold State.loadAt
  dsimp only
  split
  · exact s.loadPlain_alike _ key n
  · exact s.loadBelow_alike _ _ _ _

/-- What a READY tile of the context holds counts for it, and no byte and no register changes. -/
theorem State.tileSeen_alike (s : State) (c : Agent) (key n : Nat) : s.Alike (s.tileSeen c key n) := ⟨rfl, rfl, rfl, rfl⟩

/-- A plain load of the context's own changes no byte and no register. -/
theorem State.loadOwn_alike (s : State) (vec : Bool) (key n : Nat) : s.Alike (s.loadOwn vec key n).2 := by
  unfold State.loadOwn
  split
  · exact s.loadAt_alike _ key n
  · dsimp only
    refine State.Alike.trans (t := if s.underTile key n then s.tileSeen s.self key n else s) ?_
      ((State.loadPoint_alike _ _ key n).trans (State.bounding_alike _ _ _ _))
    split
    · exact s.tileSeen_alike _ _ _
    · exact .refl s

/-- An invariant load changes no byte and no register. -/
theorem State.loadInvariant_alike (s : State) (c : Agent) (key n : Nat) : s.Alike (s.loadInvariant c key n).2 := by
  unfold State.loadInvariant
  dsimp only
  split
  · split <;> exact .refl s
  · exact ⟨rfl, rfl, rfl, rfl⟩

/-- A load at a key changes no byte and no register, whatever its mode. -/
theorem State.loadKey_alike (s : State) (vec : Bool) (m : LoadMode) (key n : Nat) : s.Alike (s.loadKey vec m key n).2 := by
  unfold State.loadKey
  split
  · exact s.loadOwn_alike vec key n
  · split
    · exact s.loadOwn_alike vec key n
    · exact s.loadInvariant_alike _ key n
  · exact (s.tileSeen_alike _ key n).trans (State.loadOwn_alike _ vec key n)
  · exact (State.Alike.trans (t := (s.acquireOf s.self _ fun r => r.touches key n).homeSeen s.self _ key n) ⟨rfl, rfl, rfl, rfl⟩
      (State.halved_alike _)).trans (State.loadOwn_alike _ vec key n)

/-! ### Bytes that are stored -/

/-- The n bytes of a value are n. -/
@[simp] theorem toBytes_length (n x : Nat) : (toBytes n x).length = n := by
  induction n generalizing x with
  | zero => rfl
  | succ n ih => simp [toBytes, ih]

/-- A byte of a run is the byte at its key. -/
theorem Memory.bytes_getElem? (m : List Host.Cell) (k n i : Nat) :
    (Memory.bytes m k n)[i]? = if i < n then some (Memory.get m (k + i)) else none := by
  induction n generalizing k i with
  | zero => simp [Memory.bytes]
  | succ n ih =>
    cases i with
    | zero => simp [Memory.bytes]
    | succ i => simp [Memory.bytes, ih, Nat.add_assoc, Nat.add_comm 1 i]

/-- A block that is written reads back. -/
theorem Memory.bytes_setSome {m : List Host.Cell} (h : Memory.wf m = true) (k : Nat) (bs : List Byte) :
    Memory.bytes (Memory.setSome m k (bs.map some)) k bs.length = bs := by
  apply List.ext_getElem?
  intro i
  rw [Memory.bytes_getElem?]
  split
  · rename_i hi
    rw [Memory.get_setSome h k _ i (by simpa using hi)]
    simp [List.getElem?_eq_getElem hi]
  · rename_i hi
    rw [List.getElem?_eq_none (by omega)]

/-- Runs of bytes on which two lists agree are the same. -/
theorem Memory.bytes_congr {m m' : List Host.Cell} {k n : Nat} (h : ∀ a, k ≤ a → a < k + n → Memory.get m' a = Memory.get m a) :
    Memory.bytes m' k n = Memory.bytes m k n := by
  apply List.ext_getElem?
  intro i
  rw [Memory.bytes_getElem?, Memory.bytes_getElem?]
  split
  · rw [h (k + i) (by omega) (by omega)]
  · rfl

/-! ### Streams, scans and places -/

/-- The stream of a frame corrects and logs errors, and changes nothing else. -/
theorem State.streamed_alike (s : State) (frame size : Nat) : s.Alike (s.streamed frame size) :=
  (State.Alike.foldl (fun (s : State) (f : Flip) => s.logError f.array (if f.array.kind = 5 then 4 else 1) (reportAddr (f.word * 8)) (dieOfAddr frame * 576) 15 0)
    (fun s f => s.logError_alike f.array _ _ _ _ _) (s.flips.filter fun f => !f.fatal && f.meets frame size) s).trans ⟨rfl, rfl, rfl, rfl⟩

/-- A move of a frame leaves memory with its bytes moved (R386). -/
theorem State.moveFrame_mem (s : State) (old new : Nat) (small : Bool) :
    (s.moveFrame old new small).mem = moveBytes old new (pageSize small) s.mem :=
  (State.inject_alike _ new (pageSize small)).1.trans (congrArg (moveBytes old new (pageSize small)) (s.streamed_alike old (pageSize small)).1)

/-- Without stored errors, a message that holds none reads as it is (R266). -/
theorem State.regionRead_none {s : State} {m : HeapMsg} (h : s.flips = []) (k : m.spoilt = none) (core : Nat) :
    s.regionRead core m = (true, s) := by
  unfold State.regionRead State.regionAct
  rw [k]
  dsimp only
  rw [State.checkRead_none h]
  exact ite_self _

/-- Without stored errors, writing a message to the overflow region succeeds; what it changes is the injection's (R370). -/
theorem State.regionWrite_none {s : State} (h : s.flips = []) (core : Nat) (m : HeapMsg) :
    s.regionWrite core m = (true, s.inject (regionKey core m.stamp) 64) := by
  unfold State.regionWrite State.regionAct
  dsimp only
  rw [State.checkWrite_none h]
  rfl

/-- What the stagehands read of other queues, where there is none, changes nothing. -/
@[simp] theorem State.contenders_nil (s : State) (pkg : Nat) : s.contenders pkg [] = ([], s) := rfl

/-- The stagehands' reading of nothing. -/
@[simp] theorem State.stageScan_nil (s : State) (p kid : Nat) : s.stageScan p kid [] = (true, s) := rfl

/-- The place that a context has reached in the stream of its gang is its PC; nothing else of the state changes. -/
theorem State.inStep_eq (s : State) : ∃ pc, s.inStep = { s with slot := { s.slot with pc := pc } } := by
  unfold State.inStep
  split
  · exact ⟨_, rfl⟩
  · exact ⟨s.slot.pc, rfl⟩

/-- A context that is in no gang is where it is. -/
theorem State.inStep_of_none {s : State} (h : s.gangOf s.coreId s.slotId = none) : s.inStep = s := by
  unfold State.inStep
  rw [h]

/-- A release half is performed once: not again while the access that follows it waits for a device (R276). -/
theorem State.relFlag_requested {s : State} (h : s.requested = true) (x : Ext) : s.relFlag x = .ok s := by
  simp [State.relFlag, h]

end Sys2Proof.Machine
end

