-- ==== Sys2Proof/Laws/Encoding.lean ====
section
/-! SUPPORT. The places of the fields: what an encoding packs, the decoder's extractions read back. -/

namespace Sys2Proof

/-- R18: a scalar operand is read back from its code. -/
theorem SOpd.ofBits_bits (o : SOpd) : SOpd.ofBits o.bits = o := by
  cases o with
  | w n => revert n; decide
  | q n => revert n; decide
  | link d => cases d <;> decide

/-- R19: a vector operand is read back from its code. -/
theorem VOpd.ofBits_bits (o : VOpd) : VOpd.ofBits o.bits = o := by
  cases o with
  | v n => revert n; decide
  | q n => revert n; decide
  | link d => cases d <;> decide
  | rsv n => revert n; decide

/-- R52: an operand is read back from its specifier. -/
theorem Spec.ofBits_bits (o : Spec) : Spec.ofBits o.bits = o := by
  cases o with
  | s o => cases o with
    | w n => revert n; decide
    | q n => revert n; decide
    | link d => cases d <;> decide
  | v o => cases o with
    | v n => revert n; decide
    | q n => revert n; decide
    | link d => cases d <;> decide
    | rsv n => revert n; decide
  | t n => revert n; decide

/-- R48, format A: each field is read back from its place. -/
theorem packA_len (f : BitVec 9) (b a d : BitVec 5) (m : BitVec 6) : (packA f b a d m).extractLsb' 0 2 = 0 := by
  simp only [packA]; ext i; grind
theorem packA_major (f : BitVec 9) (b a d : BitVec 5) (m : BitVec 6) : (packA f b a d m).extractLsb' 2 6 = m := by
  simp only [packA]; ext i; simp; grind
theorem packA_d (f : BitVec 9) (b a d : BitVec 5) (m : BitVec 6) : (packA f b a d m).extractLsb' 8 5 = d := by
  simp only [packA]; ext i; simp; grind
theorem packA_a (f : BitVec 9) (b a d : BitVec 5) (m : BitVec 6) : (packA f b a d m).extractLsb' 13 5 = a := by
  simp only [packA]; ext i; simp; grind
theorem packA_b (f : BitVec 9) (b a d : BitVec 5) (m : BitVec 6) : (packA f b a d m).extractLsb' 18 5 = b := by
  simp only [packA]; ext i; simp; grind
theorem packA_func (f : BitVec 9) (b a d : BitVec 5) (m : BitVec 6) : (packA f b a d m).extractLsb' 23 9 = f := by
  simp only [packA]; ext i; simp; grind

/-- R48, formats I, M and B: each field is read back from its place. -/
theorem packI_len (i : BitVec 14) (a d : BitVec 5) (m : BitVec 6) (l) : (packI i a d m l).extractLsb' 0 2 = l := by
  simp only [packI]; ext i; simp; grind
theorem packI_major (i : BitVec 14) (a d : BitVec 5) (m : BitVec 6) (l) : (packI i a d m l).extractLsb' 2 6 = m := by
  simp only [packI]; ext i; simp; grind
theorem packI_d (i : BitVec 14) (a d : BitVec 5) (m : BitVec 6) (l) : (packI i a d m l).extractLsb' 8 5 = d := by
  simp only [packI]; ext i; simp; grind
theorem packI_a (i : BitVec 14) (a d : BitVec 5) (m : BitVec 6) (l) : (packI i a d m l).extractLsb' 13 5 = a := by
  simp only [packI]; ext i; simp; grind
theorem packI_imm (i : BitVec 14) (a d : BitVec 5) (m : BitVec 6) (l) : (packI i a d m l).extractLsb' 18 14 = i := by
  simp only [packI]; ext i; simp; grind

/-- R48, formats J and C: each field is read back from its place. -/
theorem packJ_len (i : BitVec 24) (m : BitVec 6) : (packJ i m).extractLsb' 0 2 = 0 := by simp only [packJ]; ext i; grind
theorem packJ_major (i : BitVec 24) (m : BitVec 6) : (packJ i m).extractLsb' 2 6 = m := by
  simp only [packJ]; ext i; simp; grind
theorem packJ_disp (i : BitVec 24) (m : BitVec 6) : (packJ i m).extractLsb' 8 24 = i := by
  simp only [packJ]; ext i; simp; grind

/-- R51, word 0 of the extended form: each field is read back from its place. -/
theorem packX0_len (x : Ext) (f : BitVec 9) (m : BitVec 6) (l : BitVec 2) : (packX0 x f m l).extractLsb' 0 2 = l := by simp only [packX0]; ext i; simp; grind
theorem packX0_major (x : Ext) (f : BitVec 9) (m : BitVec 6) (l : BitVec 2) : (packX0 x f m l).extractLsb' 2 6 = m := by
  simp only [packX0]; ext i; simp; grind
theorem packX0_func (x : Ext) (f : BitVec 9) (m : BitVec 6) (l : BitVec 2) : (packX0 x f m l).extractLsb' 8 9 = f := by
  simp only [packX0]; ext i; simp; grind
theorem packX0_od (x : Ext) (f : BitVec 9) (m : BitVec 6) (l : BitVec 2) : (packX0 x f m l).extractLsb' 17 7 = x.od.bits := by
  simp only [packX0]; ext i; simp; grind
theorem packX0_oa (x : Ext) (f : BitVec 9) (m : BitVec 6) (l : BitVec 2) : (packX0 x f m l).extractLsb' 24 7 = x.oa.bits := by
  simp only [packX0]; ext i; simp; grind
theorem packX0_z (x : Ext) (f : BitVec 9) (m : BitVec 6) (l : BitVec 2) : (packX0 x f m l).getLsbD 31 = x.z := by
  simp only [packX0, BitVec.getLsbD_append]; simp

/-- R51, word 1 of the extended form: each field is read back from its place. -/
theorem packX1_ob (x : Ext) : (packX1 x).extractLsb' 0 7 = x.ob.bits := by simp only [packX1]; ext i; simp; grind
theorem packX1_oc (x : Ext) : (packX1 x).extractLsb' 7 7 = x.oc.bits := by simp only [packX1]; ext i; simp; grind
theorem packX1_mask (x : Ext) : (packX1 x).extractLsb' 14 5 = BitVec.ofNat 5 x.mask.val := by
  simp only [packX1]; ext i; simp; grind
theorem packX1_me (x : Ext) : (packX1 x).getLsbD 19 = x.me := by simp only [packX1, BitVec.getLsbD_append]; simp
theorem packX1_et (x : Ext) : (packX1 x).extractLsb' 20 4 = x.et.code := by simp only [packX1]; ext i; simp; grind
theorem packX1_ro (x : Ext) : (packX1 x).extractLsb' 24 3 = roCode x.ro := by simp only [packX1]; ext i; simp; grind
theorem packX1_scp (x : Ext) : (packX1 x).extractLsb' 27 3 = x.scp.code := by simp only [packX1]; ext i; simp; grind
theorem packX1_acq (x : Ext) : (packX1 x).getLsbD 30 = x.acq := by simp only [packX1, BitVec.getLsbD_append]; simp
theorem packX1_rel (x : Ext) : (packX1 x).getLsbD 31 = x.rel := by simp only [packX1, BitVec.getLsbD_append]; simp

/-- R51: a rounding override is read back from its code. -/
theorem roOfCode_roCode (r : Option Rm) : roOfCode (roCode r) = some r := by
  cases r with | none => rfl | some r => cases r <;> rfl

/-- R51: a scope is read back from its code. -/
theorem Scope.ofCode_code (r : Scope) : Scope.ofCode r.code = some r := by cases r <;> rfl

/-- R53: an element type is read back from its code. -/
theorem Fmt.ofCode_code (r : Fmt) : Fmt.ofCode r.code = r := by cases r <;> rfl

/-- The code of a mask register is its number. -/
theorem maskCode_toNat (n : Fin 24) : (BitVec.ofNat 5 n.val).toNat = n.val := by revert n; decide

/-- R51: the fields of an extended form are read back from its words. -/
theorem extFields_pack (x : Ext) (f : BitVec 9) (m : BitVec 6) (l : BitVec 2) : extFields (packX0 x f m l) (packX1 x) x.imm = x := by
  simp only [extFields, packX0_od, packX0_oa, packX0_z, packX1_ob, packX1_oc, packX1_mask, packX1_me, packX1_et, packX1_ro, packX1_scp, packX1_acq, packX1_rel, Spec.ofBits_bits, roOfCode_roCode, Scope.ofCode_code, Fmt.ofCode_code, maskCode_toNat]
  simp

/-- R55: the codes of an extended form name something. -/
theorem extCodesOk_pack (x : Ext) : extCodesOk (packX1 x) = true := by
  simp only [extCodesOk, packX1_ro, packX1_scp, packX1_mask, roOfCode_roCode, Scope.ofCode_code, maskCode_toNat]; simp

/-- R45: a literal is read back from its two words. -/
theorem literalOf_halves (l : Word) : literalOf (l.extractLsb' 0 32) (l.extractLsb' 32 32) = l := by
  simp only [literalOf]; ext i; simp; grind

end Sys2Proof
end

