-- ==== Sys2Proof/Laws/Issue.lean ====
section
/-! SUPPORT. When a scalar instruction issues, and what it then does: the one lemma that the statements about scalar
instructions go through. -/

namespace Sys2Proof.Machine

/-- What follows an act that succeeds. -/
@[simp] theorem act_bind_ok {ε α β : Type} (a : α) (f : α → Except ε β) : (Except.ok a >>= f) = f a := rfl

/-- What follows an act that stops does not happen. -/
@[simp] theorem act_bind_error {ε α β : Type} (e : ε) (f : α → Except ε β) : ((Except.error e : Except ε α) >>= f) = Except.error e := rfl

/-- A body that is not open is closed already. -/
theorem Sequencer.close_of_closed {q : Sequencer} (h : q.opened = none) : q.close = q := by
  simp [Sequencer.close, h]

/-- With nothing outstanding, no pace changes the state. -/
theorem State.paced_of_clear {s : State} (h : s.Clear) (p : Pace) : s.paced p = s := by
  have e : s.closeBody = s := by
    have : s.slot.seq.close = s.slot.seq := Sequencer.close_of_closed (by rw [h])
    simp [State.closeBody, this]
  cases p <;> simp [State.paced, e]

/-- With nothing outstanding, no pace makes an instruction wait. -/
theorem State.mustDrain_of_clear {s : State} (h : s.Clear) (p : Pace) : s.mustDrain p = false := by
  unfold State.Clear at h
  cases p <;> simp [State.mustDrain, h, Sequencer.storesPending, Sequencer.entries]

/-- With nothing outstanding, no register is waited for. -/
theorem State.hazard_of_clear {s : State} (h : s.Clear) (ops : List SOpd) : s.hazard ops = false := by
  unfold State.Clear at h
  simp only [State.hazard, List.any_eq_false]
  intro o _
  cases o <;> simp [Sequencer.writes, h, Sequencer.entries]

/-- With nothing outstanding, an instruction that passes its decoding checks issues as the state stands. -/
theorem State.issues_of_clear {s : State} {c : Checks} (h : s.Clear) (hc : s.decodeTrap c = .ok ()) (ops : List SOpd) (p : Pace) :
    s.Issues c ops p s :=
  ⟨hc, (State.paced_of_clear h _).symm, State.mustDrain_of_clear h _, State.hazard_of_clear h _⟩

/-- What issues does what its body does. -/
theorem State.issue_eq {s t : State} {c : Checks} {ops : List SOpd} {p : Pace} (h : s.Issues c ops p t) (body : State → Act State) :
    s.issue c ops p body = (match body t with
      | .ok u => u.completed
      | .error (.trap k) => t.scalarTrap k
      | .error (.block b) => t.stall b
      | .error (.hold f) => t.keeping ops (f t)
      | .error (.wait u) => t.keeping ops u) := by
  obtain ⟨h1, h2, h3, h4⟩ := h
  subst h2
  simp only [State.issue, h1, h3, h4]
  generalize body _ = r
  rcases r with (_ | _ | _ | _) | _ <;> rfl

/-- An instruction that issues and meets nothing that stops it completes. -/
theorem State.issue_ok {s t u : State} {c : Checks} {ops : List SOpd} {p : Pace} {body : State → Act State}
    (h : s.Issues c ops p t) (hb : body t = .ok u) : s.issue c ops p body = u.completed := by
  rw [State.issue_eq h, hb]

/-- An instruction that issues and meets a trap takes it. -/
theorem State.issue_trap {s t : State} {c : Checks} {ops : List SOpd} {p : Pace} {body : State → Act State} {k : Trap}
    (h : s.Issues c ops p t) (hb : body t = .error (.trap k)) : s.issue c ops p body = t.scalarTrap k := by
  rw [State.issue_eq h, hb]

/-- An instruction whose decoding checks trap takes that trap. -/
theorem State.issue_decodeTrap {s : State} {c : Checks} {k : Trap} (h : s.decodeTrap c = .error (.trap k)) (ops : List SOpd) (p : Pace)
    (body : State → Act State) : s.issue c ops p body = s.scalarTrap k := by
  simp [State.issue, h]

end Sys2Proof.Machine
end

