-- ==== Sys2Proof/Laws/PerInstr.lean ====
section
/-! SUPPORT. The family `Length`, instruction by instruction: the first word of an instruction says how many words it
has (R45); an event has none. -/

namespace Sys2Proof.Laws.Length

/-- R45: the LEN of an instruction's first word gives the number of its words. -/
def Statement (i : Instr) : Prop := ∀ w ws, (encode i).list = w :: ws → wordCount w = (encode i).list.length

/-- An event has no words. -/
theorem of_none {i : Instr} (h : encode i = .none) : Statement i := by
  intro w ws hw
  rw [h] at hw
  cases hw

/-- A base form has one word. -/
theorem of_one {i : Instr} {w : IWord} (h : encode i = .one w) (hl : w.extractLsb' 0 2 = 0) : Statement i := by
  intro u us hw
  rw [h] at hw ⊢
  cases hw
  simp [wordCount, hl, Words.list]

/-- An extended form has three words. -/
theorem of_packX {i : Instr} {m : BitVec 6} {f : BitVec 9} {x : Ext} (h : encode i = packX m f 2 x) : Statement i := by
  intro u us hw
  rw [h] at hw ⊢
  cases hw
  simp [wordCount, packX0_len, packX, Words.list]

/-- An extended form with a literal has five words. -/
theorem of_packXL {i : Instr} {m : BitVec 6} {f : BitVec 9} {x : Ext} {l : Word} (h : encode i = packXL m f x l) : Statement i := by
  intro u us hw
  rw [h] at hw ⊢
  cases hw
  simp [wordCount, packX0_len, packXL, Words.list]

theorem add a0 a1 a2 : Statement (.add a0 a1 a2) := of_one rfl (packA_len _ _ _ _ _)
theorem sub a0 a1 a2 : Statement (.sub a0 a1 a2) := of_one rfl (packA_len _ _ _ _ _)
theorem mul a0 a1 a2 : Statement (.mul a0 a1 a2) := of_one rfl (packA_len _ _ _ _ _)
theorem mulh a0 a1 a2 : Statement (.mulh a0 a1 a2) := of_one rfl (packA_len _ _ _ _ _)
theorem div a0 a1 a2 : Statement (.div a0 a1 a2) := of_one rfl (packA_len _ _ _ _ _)
theorem divu a0 a1 a2 : Statement (.divu a0 a1 a2) := of_one rfl (packA_len _ _ _ _ _)
theorem rem a0 a1 a2 : Statement (.rem a0 a1 a2) := of_one rfl (packA_len _ _ _ _ _)
theorem remu a0 a1 a2 : Statement (.remu a0 a1 a2) := of_one rfl (packA_len _ _ _ _ _)
theorem and a0 a1 a2 : Statement (.and a0 a1 a2) := of_one rfl (packA_len _ _ _ _ _)
theorem or a0 a1 a2 : Statement (.or a0 a1 a2) := of_one rfl (packA_len _ _ _ _ _)
theorem xor a0 a1 a2 : Statement (.xor a0 a1 a2) := of_one rfl (packA_len _ _ _ _ _)
theorem andn a0 a1 a2 : Statement (.andn a0 a1 a2) := of_one rfl (packA_len _ _ _ _ _)
theorem sll a0 a1 a2 : Statement (.sll a0 a1 a2) := of_one rfl (packA_len _ _ _ _ _)
theorem srl a0 a1 a2 : Statement (.srl a0 a1 a2) := of_one rfl (packA_len _ _ _ _ _)
theorem sra a0 a1 a2 : Statement (.sra a0 a1 a2) := of_one rfl (packA_len _ _ _ _ _)
theorem ror a0 a1 a2 : Statement (.ror a0 a1 a2) := of_one rfl (packA_len _ _ _ _ _)
theorem min a0 a1 a2 : Statement (.min a0 a1 a2) := of_one rfl (packA_len _ _ _ _ _)
theorem max a0 a1 a2 : Statement (.max a0 a1 a2) := of_one rfl (packA_len _ _ _ _ _)
theorem slt a0 a1 a2 : Statement (.slt a0 a1 a2) := of_one rfl (packA_len _ _ _ _ _)
theorem sltu a0 a1 a2 : Statement (.sltu a0 a1 a2) := of_one rfl (packA_len _ _ _ _ _)
theorem seq a0 a1 a2 : Statement (.seq a0 a1 a2) := of_one rfl (packA_len _ _ _ _ _)
theorem sne a0 a1 a2 : Statement (.sne a0 a1 a2) := of_one rfl (packA_len _ _ _ _ _)
theorem cmovz a0 a1 a2 : Statement (.cmovz a0 a1 a2) := of_one rfl (packA_len _ _ _ _ _)
theorem cmovn a0 a1 a2 : Statement (.cmovn a0 a1 a2) := of_one rfl (packA_len _ _ _ _ _)
theorem addsat a0 a1 a2 : Statement (.addsat a0 a1 a2) := of_one rfl (packA_len _ _ _ _ _)
theorem popc a0 a1 : Statement (.popc a0 a1) := of_one rfl (packA_len _ _ _ _ _)
theorem clz a0 a1 : Statement (.clz a0 a1) := of_one rfl (packA_len _ _ _ _ _)
theorem ctz a0 a1 : Statement (.ctz a0 a1) := of_one rfl (packA_len _ _ _ _ _)
theorem brev a0 a1 : Statement (.brev a0 a1) := of_one rfl (packA_len _ _ _ _ _)
theorem bswap a0 a1 : Statement (.bswap a0 a1) := of_one rfl (packA_len _ _ _ _ _)
theorem mkm a0 a1 a2 : Statement (.mkm a0 a1 a2) := of_one rfl (packA_len _ _ _ _ _)
theorem fsli a0 a1 a2 a3 : Statement (.fsli a0 a1 a2 a3) := of_one rfl (packA_len _ _ _ _ _)
theorem fsri a0 a1 a2 a3 : Statement (.fsri a0 a1 a2 a3) := of_one rfl (packA_len _ _ _ _ _)
theorem addi a0 a1 a2 : Statement (.addi a0 a1 a2) := of_one rfl (packI_len _ _ _ _ _)
theorem addiLiteral a0 a1 a2 : Statement (.addiLiteral a0 a1 a2) := by
  intro w ws hw
  cases hw
  simp [wordCount, packI_len, Words.list, encode]
theorem andi a0 a1 a2 : Statement (.andi a0 a1 a2) := of_one rfl (packI_len _ _ _ _ _)
theorem ori a0 a1 a2 : Statement (.ori a0 a1 a2) := of_one rfl (packI_len _ _ _ _ _)
theorem xori a0 a1 a2 : Statement (.xori a0 a1 a2) := of_one rfl (packI_len _ _ _ _ _)
theorem slti a0 a1 a2 : Statement (.slti a0 a1 a2) := of_one rfl (packI_len _ _ _ _ _)
theorem slli a0 a1 a2 : Statement (.slli a0 a1 a2) := of_one rfl (packI_len _ _ _ _ _)
theorem srli a0 a1 a2 : Statement (.srli a0 a1 a2) := of_one rfl (packI_len _ _ _ _ _)
theorem srai a0 a1 a2 : Statement (.srai a0 a1 a2) := of_one rfl (packI_len _ _ _ _ _)
theorem bfx a0 a1 a2 a3 a4 : Statement (.bfx a0 a1 a2 a3 a4) := of_one rfl (packI_len _ _ _ _ _)
theorem bfi a0 a1 a2 a3 : Statement (.bfi a0 a1 a2 a3) := of_one rfl (packI_len _ _ _ _ _)
theorem lpc a0 a1 : Statement (.lpc a0 a1) := of_one rfl (packJ_len _ _)
theorem jalr a0 a1 a2 : Statement (.jalr a0 a1 a2) := of_one rfl (packI_len _ _ _ _ _)
theorem mfcr a0 a1 : Statement (.mfcr a0 a1) := of_one rfl (packI_len _ _ _ _ _)
theorem mtcr a0 a1 : Statement (.mtcr a0 a1) := of_one rfl (packI_len _ _ _ _ _)
theorem vloop a0 a1 : Statement (.vloop a0 a1) := of_one rfl (packI_len _ _ _ _ _)
theorem vloopRegister a0 a1 : Statement (.vloopRegister a0 a1) := of_one rfl (packI_len _ _ _ _ _)
theorem beq a0 a1 a2 : Statement (.beq a0 a1 a2) := of_one rfl (packI_len _ _ _ _ _)
theorem bne a0 a1 a2 : Statement (.bne a0 a1 a2) := of_one rfl (packI_len _ _ _ _ _)
theorem blt a0 a1 a2 : Statement (.blt a0 a1 a2) := of_one rfl (packI_len _ _ _ _ _)
theorem bge a0 a1 a2 : Statement (.bge a0 a1 a2) := of_one rfl (packI_len _ _ _ _ _)
theorem bltu a0 a1 a2 : Statement (.bltu a0 a1 a2) := of_one rfl (packI_len _ _ _ _ _)
theorem bgeu a0 a1 a2 : Statement (.bgeu a0 a1 a2) := of_one rfl (packI_len _ _ _ _ _)
theorem bany a0 a1 a2 : Statement (.bany a0 a1 a2) := of_one rfl (packI_len _ _ _ _ _)
theorem ball a0 a1 a2 : Statement (.ball a0 a1 a2) := of_one rfl (packI_len _ _ _ _ _)
theorem bnone a0 a1 a2 : Statement (.bnone a0 a1 a2) := of_one rfl (packI_len _ _ _ _ _)
theorem j a0 : Statement (.j a0) := of_one rfl (packJ_len _ _)
theorem jal a0 : Statement (.jal a0) := of_one rfl (packJ_len _ _)
theorem cue a0 : Statement (.cue a0) := of_one rfl (packJ_len _ _)
theorem ldB a0 a1 a2 : Statement (.ldB a0 a1 a2) := of_one rfl (packI_len _ _ _ _ _)
theorem ldBz a0 a1 a2 : Statement (.ldBz a0 a1 a2) := of_one rfl (packI_len _ _ _ _ _)
theorem ldH a0 a1 a2 : Statement (.ldH a0 a1 a2) := of_one rfl (packI_len _ _ _ _ _)
theorem ldHz a0 a1 a2 : Statement (.ldHz a0 a1 a2) := of_one rfl (packI_len _ _ _ _ _)
theorem ldW a0 a1 a2 : Statement (.ldW a0 a1 a2) := of_one rfl (packI_len _ _ _ _ _)
theorem ldWz a0 a1 a2 : Statement (.ldWz a0 a1 a2) := of_one rfl (packI_len _ _ _ _ _)
theorem ldD a0 a1 a2 : Statement (.ldD a0 a1 a2) := of_one rfl (packI_len _ _ _ _ _)
theorem ldInv a0 a1 a2 : Statement (.ldInv a0 a1 a2) := of_one rfl (packI_len _ _ _ _ _)
theorem stB a0 a1 a2 : Statement (.stB a0 a1 a2) := of_one rfl (packI_len _ _ _ _ _)
theorem stH a0 a1 a2 : Statement (.stH a0 a1 a2) := of_one rfl (packI_len _ _ _ _ _)
theorem stW a0 a1 a2 : Statement (.stW a0 a1 a2) := of_one rfl (packI_len _ _ _ _ _)
theorem stD a0 a1 a2 : Statement (.stD a0 a1 a2) := of_one rfl (packI_len _ _ _ _ _)
theorem vld a0 a1 a2 : Statement (.vld a0 a1 a2) := of_one rfl (packI_len _ _ _ _ _)
theorem vst a0 a1 a2 : Statement (.vst a0 a1 a2) := of_one rfl (packI_len _ _ _ _ _)
theorem yield : Statement .yield := of_one rfl (packA_len _ _ _ _ _)
theorem wait a0 a1 : Statement (.wait a0 a1) := of_one rfl (packA_len _ _ _ _ _)
theorem endAct : Statement .endAct := of_one rfl (packA_len _ _ _ _ _)
theorem trap a0 : Statement (.trap a0) := of_one rfl (packJ_len _ _)
theorem upret : Statement .upret := of_one rfl (packA_len _ _ _ _ _)
theorem wpx a0 : Statement (.wpx a0) := of_one rfl (packA_len _ _ _ _ _)
theorem ifence : Statement .ifence := of_one rfl (packA_len _ _ _ _ _)
theorem vadd a0 a1 a2 a3 : Statement (.vadd a0 a1 a2 a3) := of_one rfl (packA_len _ _ _ _ _)
theorem vsub a0 a1 a2 a3 : Statement (.vsub a0 a1 a2 a3) := of_one rfl (packA_len _ _ _ _ _)
theorem vmul a0 a1 a2 a3 : Statement (.vmul a0 a1 a2 a3) := of_one rfl (packA_len _ _ _ _ _)
theorem vfma a0 a1 a2 a3 : Statement (.vfma a0 a1 a2 a3) := of_one rfl (packA_len _ _ _ _ _)
theorem vfms a0 a1 a2 a3 : Statement (.vfms a0 a1 a2 a3) := of_one rfl (packA_len _ _ _ _ _)
theorem vmin a0 a1 a2 a3 : Statement (.vmin a0 a1 a2 a3) := of_one rfl (packA_len _ _ _ _ _)
theorem vmax a0 a1 a2 a3 : Statement (.vmax a0 a1 a2 a3) := of_one rfl (packA_len _ _ _ _ _)
theorem vabs a0 a1 a2 : Statement (.vabs a0 a1 a2) := of_one rfl (packA_len _ _ _ _ _)
theorem vneg a0 a1 a2 : Statement (.vneg a0 a1 a2) := of_one rfl (packA_len _ _ _ _ _)
theorem vaddX a0 a1 a2 : Statement (.vaddX a0 a1 a2) := of_one rfl (packA_len _ _ _ _ _)
theorem vsubX a0 a1 a2 : Statement (.vsubX a0 a1 a2) := of_one rfl (packA_len _ _ _ _ _)
theorem vmulX a0 a1 a2 : Statement (.vmulX a0 a1 a2) := of_one rfl (packA_len _ _ _ _ _)
theorem vdwadd a0 a1 a2 : Statement (.vdwadd a0 a1 a2) := of_one rfl (packA_len _ _ _ _ _)
theorem vdwmul a0 a1 a2 : Statement (.vdwmul a0 a1 a2) := of_one rfl (packA_len _ _ _ _ _)
theorem vdwfma a0 a1 a2 : Statement (.vdwfma a0 a1 a2) := of_one rfl (packA_len _ _ _ _ _)
theorem vdwround a0 a1 : Statement (.vdwround a0 a1) := of_one rfl (packA_len _ _ _ _ _)
theorem vcsum a0 a1 : Statement (.vcsum a0 a1) := of_one rfl (packA_len _ _ _ _ _)
theorem vcdot a0 a1 a2 : Statement (.vcdot a0 a1 a2) := of_one rfl (packA_len _ _ _ _ _)
theorem vsum a0 a1 a2 : Statement (.vsum a0 a1 a2) := of_one rfl (packA_len _ _ _ _ _)
theorem vrmax a0 a1 a2 : Statement (.vrmax a0 a1 a2) := of_one rfl (packA_len _ _ _ _ _)
theorem vrmin a0 a1 a2 : Statement (.vrmin a0 a1 a2) := of_one rfl (packA_len _ _ _ _ _)
theorem vscan a0 a1 a2 : Statement (.vscan a0 a1 a2) := of_one rfl (packA_len _ _ _ _ _)
theorem vgmax a0 a1 a2 a3 : Statement (.vgmax a0 a1 a2 a3) := of_one rfl (packA_len _ _ _ _ _)
theorem viadd a0 a1 a2 a3 : Statement (.viadd a0 a1 a2 a3) := of_one rfl (packA_len _ _ _ _ _)
theorem visub a0 a1 a2 a3 : Statement (.visub a0 a1 a2 a3) := of_one rfl (packA_len _ _ _ _ _)
theorem vimul a0 a1 a2 a3 : Statement (.vimul a0 a1 a2 a3) := of_one rfl (packA_len _ _ _ _ _)
theorem vimin a0 a1 a2 a3 : Statement (.vimin a0 a1 a2 a3) := of_one rfl (packA_len _ _ _ _ _)
theorem vimax a0 a1 a2 a3 : Statement (.vimax a0 a1 a2 a3) := of_one rfl (packA_len _ _ _ _ _)
theorem viand a0 a1 a2 a3 : Statement (.viand a0 a1 a2 a3) := of_one rfl (packA_len _ _ _ _ _)
theorem vior a0 a1 a2 a3 : Statement (.vior a0 a1 a2 a3) := of_one rfl (packA_len _ _ _ _ _)
theorem vixor a0 a1 a2 a3 : Statement (.vixor a0 a1 a2 a3) := of_one rfl (packA_len _ _ _ _ _)
theorem visll a0 a1 a2 a3 : Statement (.visll a0 a1 a2 a3) := of_one rfl (packA_len _ _ _ _ _)
theorem visrl a0 a1 a2 a3 : Statement (.visrl a0 a1 a2 a3) := of_one rfl (packA_len _ _ _ _ _)
theorem vifsl a0 a1 a2 a3 : Statement (.vifsl a0 a1 a2 a3) := of_one rfl (packA_len _ _ _ _ _)
theorem vifsr a0 a1 a2 a3 : Statement (.vifsr a0 a1 a2 a3) := of_one rfl (packA_len _ _ _ _ _)
theorem veq a0 a1 a2 a3 : Statement (.veq a0 a1 a2 a3) := of_one rfl (packA_len _ _ _ _ _)
theorem vlt a0 a1 a2 a3 : Statement (.vlt a0 a1 a2 a3) := of_one rfl (packA_len _ _ _ _ _)
theorem vle a0 a1 a2 a3 : Statement (.vle a0 a1 a2 a3) := of_one rfl (packA_len _ _ _ _ _)
theorem vne a0 a1 a2 a3 : Statement (.vne a0 a1 a2 a3) := of_one rfl (packA_len _ _ _ _ _)
theorem vuno a0 a1 a2 a3 : Statement (.vuno a0 a1 a2 a3) := of_one rfl (packA_len _ _ _ _ _)
theorem vieq a0 a1 a2 a3 : Statement (.vieq a0 a1 a2 a3) := of_one rfl (packA_len _ _ _ _ _)
theorem vilt a0 a1 a2 a3 : Statement (.vilt a0 a1 a2 a3) := of_one rfl (packA_len _ _ _ _ _)
theorem vcvt a0 a1 a2 : Statement (.vcvt a0 a1 a2) := of_one rfl (packA_len _ _ _ _ _)
theorem vcvti a0 a1 : Statement (.vcvti a0 a1) := of_one rfl (packA_len _ _ _ _ _)
theorem vcvtf a0 a1 : Statement (.vcvtf a0 a1) := of_one rfl (packA_len _ _ _ _ _)
theorem vpack a0 a1 a2 : Statement (.vpack a0 a1 a2) := of_one rfl (packA_len _ _ _ _ _)
theorem vrcp a0 a1 : Statement (.vrcp a0 a1) := of_one rfl (packA_len _ _ _ _ _)
theorem vrsq a0 a1 : Statement (.vrsq a0 a1) := of_one rfl (packA_len _ _ _ _ _)
theorem vexp2 a0 a1 : Statement (.vexp2 a0 a1) := of_one rfl (packA_len _ _ _ _ _)
theorem vmov a0 a1 : Statement (.vmov a0 a1) := of_one rfl (packA_len _ _ _ _ _)
theorem vbcst a0 a1 a2 : Statement (.vbcst a0 a1 a2) := of_one rfl (packA_len _ _ _ _ _)
theorem vperm a0 a1 a2 a3 : Statement (.vperm a0 a1 a2 a3) := of_one rfl (packA_len _ _ _ _ _)
theorem vins a0 a1 a2 a3 : Statement (.vins a0 a1 a2 a3) := of_one rfl (packA_len _ _ _ _ _)
theorem vext a0 a1 a2 a3 : Statement (.vext a0 a1 a2 a3) := of_one rfl (packA_len _ _ _ _ _)
theorem vcomp a0 a1 a2 : Statement (.vcomp a0 a1 a2) := of_one rfl (packA_len _ _ _ _ _)
theorem vexpd a0 a1 a2 : Statement (.vexpd a0 a1 a2) := of_one rfl (packA_len _ _ _ _ _)
theorem vksort a0 a1 : Statement (.vksort a0 a1) := of_one rfl (packA_len _ _ _ _ _)
theorem vsearch a0 a1 a2 : Statement (.vsearch a0 a1 a2) := of_one rfl (packA_len _ _ _ _ _)
theorem vconf a0 a1 : Statement (.vconf a0 a1) := of_one rfl (packA_len _ _ _ _ _)
theorem vpadd a0 a1 a2 a3 : Statement (.vpadd a0 a1 a2 a3) := of_one rfl (packA_len _ _ _ _ _)
theorem vpsub a0 a1 a2 a3 : Statement (.vpsub a0 a1 a2 a3) := of_one rfl (packA_len _ _ _ _ _)
theorem vpmul a0 a1 a2 a3 : Statement (.vpmul a0 a1 a2 a3) := of_one rfl (packA_len _ _ _ _ _)
theorem vpfma a0 a1 a2 a3 : Statement (.vpfma a0 a1 a2 a3) := of_one rfl (packA_len _ _ _ _ _)
theorem lclaim a0 : Statement (.lclaim a0) := of_one rfl (packA_len _ _ _ _ _)
theorem lfree : Statement .lfree := of_one rfl (packA_len _ _ _ _ _)
theorem lpoll a0 : Statement (.lpoll a0) := of_one rfl (packA_len _ _ _ _ _)
theorem rdtime a0 : Statement (.rdtime a0) := of_one rfl (packA_len _ _ _ _ _)
theorem alarm a0 a1 : Statement (.alarm a0 a1) := of_one rfl (packA_len _ _ _ _ _)
theorem sys a0 a1 : Statement (.sys a0 a1) := of_one rfl (packA_len _ _ _ _ _)
theorem sigIrq a0 a1 : Statement (.sigIrq a0 a1) := of_one rfl (packA_len _ _ _ _ _)
theorem pfetch a0 : Statement (.pfetch a0) := of_one rfl (packA_len _ _ _ _ _)
theorem pfetchMv a0 : Statement (.pfetchMv a0) := of_one rfl (packA_len _ _ _ _ _)
theorem evsnap a0 : Statement (.evsnap a0) := of_one rfl (packA_len _ _ _ _ _)
theorem evsnapClear a0 : Statement (.evsnapClear a0) := of_one rfl (packA_len _ _ _ _ _)
theorem ldxW a0 : Statement (.ldxW a0) := of_packX rfl
theorem ldxD a0 : Statement (.ldxD a0) := of_packX rfl
theorem stxW a0 : Statement (.stxW a0) := of_packX rfl
theorem stxD a0 : Statement (.stxD a0) := of_packX rfl
theorem amaddW a0 : Statement (.amaddW a0) := of_packX rfl
theorem amaddD a0 : Statement (.amaddD a0) := of_packX rfl
theorem amminW a0 : Statement (.amminW a0) := of_packX rfl
theorem amminD a0 : Statement (.amminD a0) := of_packX rfl
theorem ammaxW a0 : Statement (.ammaxW a0) := of_packX rfl
theorem ammaxD a0 : Statement (.ammaxD a0) := of_packX rfl
theorem amcasW a0 : Statement (.amcasW a0) := of_packX rfl
theorem amcasD a0 : Statement (.amcasD a0) := of_packX rfl
theorem amandD a0 : Statement (.amandD a0) := of_packX rfl
theorem amorD a0 : Statement (.amorD a0) := of_packX rfl
theorem amxorD a0 : Statement (.amxorD a0) := of_packX rfl
theorem amswapD a0 : Statement (.amswapD a0) := of_packX rfl
theorem amldD a0 : Statement (.amldD a0) := of_packX rfl
theorem amstD a0 : Statement (.amstD a0) := of_packX rfl
theorem amfaddW a0 : Statement (.amfaddW a0) := of_packX rfl
theorem curtn a0 : Statement (.curtn a0) := of_packX rfl
theorem curtnRel a0 : Statement (.curtnRel a0) := of_packX rfl
theorem curtnAcq a0 : Statement (.curtnAcq a0) := of_packX rfl
theorem succgo a0 : Statement (.succgo a0) := of_packX rfl
theorem predwait a0 : Statement (.predwait a0) := of_packX rfl
theorem barArr a0 : Statement (.barArr a0) := of_packX rfl
theorem barWait a0 : Statement (.barWait a0) := of_packX rfl
theorem barAdd a0 : Statement (.barAdd a0) := of_packX rfl
theorem ownGive a0 : Statement (.ownGive a0) := of_packX rfl
theorem send a0 : Statement (.send a0) := of_packX rfl
theorem sendh a0 : Statement (.sendh a0) := of_packX rfl
theorem sendk a0 : Statement (.sendk a0) := of_packX rfl
theorem spawn a0 : Statement (.spawn a0) := of_packX rfl
theorem gainadd a0 : Statement (.gainadd a0) := of_packX rfl
theorem resadd a0 : Statement (.resadd a0) := of_packX rfl
theorem gang a0 : Statement (.gang a0) := of_packX rfl
theorem ungang a0 : Statement (.ungang a0) := of_packX rfl
theorem myid a0 : Statement (.myid a0) := of_packX rfl
theorem trcAdd a0 : Statement (.trcAdd a0) := of_packX rfl
theorem trcGet a0 : Statement (.trcGet a0) := of_packX rfl
theorem kmap a0 : Statement (.kmap a0) := of_packX rfl
theorem defh a0 : Statement (.defh a0) := of_packX rfl
theorem vaddExt a0 a1 : Statement (.vaddExt a0 a1) := of_packX rfl
theorem vsubExt a0 a1 : Statement (.vsubExt a0 a1) := of_packX rfl
theorem vmulExt a0 a1 : Statement (.vmulExt a0 a1) := of_packX rfl
theorem vfmaExt a0 a1 : Statement (.vfmaExt a0 a1) := of_packX rfl
theorem vfmsExt a0 a1 : Statement (.vfmsExt a0 a1) := of_packX rfl
theorem vminExt a0 a1 : Statement (.vminExt a0 a1) := of_packX rfl
theorem vmaxExt a0 a1 : Statement (.vmaxExt a0 a1) := of_packX rfl
theorem vabsExt a0 a1 : Statement (.vabsExt a0 a1) := of_packX rfl
theorem vnegExt a0 a1 : Statement (.vnegExt a0 a1) := of_packX rfl
theorem vaddXExt a0 : Statement (.vaddXExt a0) := of_packX rfl
theorem vsubXExt a0 : Statement (.vsubXExt a0) := of_packX rfl
theorem vmulXExt a0 : Statement (.vmulXExt a0) := of_packX rfl
theorem vdwaddExt a0 : Statement (.vdwaddExt a0) := of_packX rfl
theorem vdwmulExt a0 : Statement (.vdwmulExt a0) := of_packX rfl
theorem vdwfmaExt a0 : Statement (.vdwfmaExt a0) := of_packX rfl
theorem vdwroundExt a0 : Statement (.vdwroundExt a0) := of_packX rfl
theorem vcsumExt a0 : Statement (.vcsumExt a0) := of_packX rfl
theorem vcdotExt a0 : Statement (.vcdotExt a0) := of_packX rfl
theorem vsumExt a0 a1 : Statement (.vsumExt a0 a1) := of_packX rfl
theorem vrmaxExt a0 a1 : Statement (.vrmaxExt a0 a1) := of_packX rfl
theorem vrminExt a0 a1 : Statement (.vrminExt a0 a1) := of_packX rfl
theorem vscanExt a0 a1 : Statement (.vscanExt a0 a1) := of_packX rfl
theorem vgmaxExt a0 a1 : Statement (.vgmaxExt a0 a1) := of_packX rfl
theorem viaddExt a0 a1 : Statement (.viaddExt a0 a1) := of_packX rfl
theorem visubExt a0 a1 : Statement (.visubExt a0 a1) := of_packX rfl
theorem vimulExt a0 a1 : Statement (.vimulExt a0 a1) := of_packX rfl
theorem viminExt a0 a1 : Statement (.viminExt a0 a1) := of_packX rfl
theorem vimaxExt a0 a1 : Statement (.vimaxExt a0 a1) := of_packX rfl
theorem viandExt a0 a1 : Statement (.viandExt a0 a1) := of_packX rfl
theorem viorExt a0 a1 : Statement (.viorExt a0 a1) := of_packX rfl
theorem vixorExt a0 a1 : Statement (.vixorExt a0 a1) := of_packX rfl
theorem visllExt a0 a1 : Statement (.visllExt a0 a1) := of_packX rfl
theorem visrlExt a0 a1 : Statement (.visrlExt a0 a1) := of_packX rfl
theorem vifslExt a0 a1 : Statement (.vifslExt a0 a1) := of_packX rfl
theorem vifsrExt a0 a1 : Statement (.vifsrExt a0 a1) := of_packX rfl
theorem veqExt a0 a1 : Statement (.veqExt a0 a1) := of_packX rfl
theorem vltExt a0 a1 : Statement (.vltExt a0 a1) := of_packX rfl
theorem vleExt a0 a1 : Statement (.vleExt a0 a1) := of_packX rfl
theorem vneExt a0 a1 : Statement (.vneExt a0 a1) := of_packX rfl
theorem vunoExt a0 a1 : Statement (.vunoExt a0 a1) := of_packX rfl
theorem vieqExt a0 a1 : Statement (.vieqExt a0 a1) := of_packX rfl
theorem viltExt a0 a1 : Statement (.viltExt a0 a1) := of_packX rfl
theorem vsel a0 : Statement (.vsel a0) := of_packX rfl
theorem vcvtExt a0 : Statement (.vcvtExt a0) := of_packX rfl
theorem vcvtiExt a0 : Statement (.vcvtiExt a0) := of_packX rfl
theorem vcvtfExt a0 : Statement (.vcvtfExt a0) := of_packX rfl
theorem vpackExt a0 : Statement (.vpackExt a0) := of_packX rfl
theorem vrcpExt a0 : Statement (.vrcpExt a0) := of_packX rfl
theorem vrsqExt a0 : Statement (.vrsqExt a0) := of_packX rfl
theorem vexp2Ext a0 : Statement (.vexp2Ext a0) := of_packX rfl
theorem vmovExt a0 : Statement (.vmovExt a0) := of_packX rfl
theorem vbcstExt a0 a1 : Statement (.vbcstExt a0 a1) := of_packX rfl
theorem vpermExt a0 a1 : Statement (.vpermExt a0 a1) := of_packX rfl
theorem vinsExt a0 a1 : Statement (.vinsExt a0 a1) := of_packX rfl
theorem vextExt a0 a1 : Statement (.vextExt a0 a1) := of_packX rfl
theorem vcompExt a0 : Statement (.vcompExt a0) := of_packX rfl
theorem vexpdExt a0 : Statement (.vexpdExt a0) := of_packX rfl
theorem vksortExt a0 : Statement (.vksortExt a0) := of_packX rfl
theorem vsearchExt a0 : Statement (.vsearchExt a0) := of_packX rfl
theorem vconfExt a0 : Statement (.vconfExt a0) := of_packX rfl
theorem vldx a0 : Statement (.vldx a0) := of_packX rfl
theorem vstx a0 : Statement (.vstx a0) := of_packX rfl
theorem vlds a0 : Statement (.vlds a0) := of_packX rfl
theorem vsts a0 : Statement (.vsts a0) := of_packX rfl
theorem vldu a0 : Statement (.vldu a0) := of_packX rfl
theorem vstu a0 : Statement (.vstu a0) := of_packX rfl
theorem vstm a0 : Statement (.vstm a0) := of_packX rfl
theorem vldt a0 : Statement (.vldt a0) := of_packX rfl
theorem vstt a0 : Statement (.vstt a0) := of_packX rfl
theorem vpaddExt a0 a1 : Statement (.vpaddExt a0 a1) := of_packX rfl
theorem vpsubExt a0 a1 : Statement (.vpsubExt a0 a1) := of_packX rfl
theorem vpmulExt a0 a1 : Statement (.vpmulExt a0 a1) := of_packX rfl
theorem vpfmaExt a0 a1 : Statement (.vpfmaExt a0 a1) := of_packX rfl
theorem tnew a0 : Statement (.tnew a0) := of_packX rfl
theorem tfree a0 : Statement (.tfree a0) := of_packX rfl
theorem twiden a0 : Statement (.twiden a0) := of_packX rfl
theorem tget a0 : Statement (.tget a0) := of_packX rfl
theorem tset a0 : Statement (.tset a0) := of_packX rfl
theorem tfill a0 : Statement (.tfill a0) := of_packX rfl
theorem tscale a0 : Statement (.tscale a0) := of_packX rfl
theorem tadd a0 : Statement (.tadd a0) := of_packX rfl
theorem trowsum a0 : Statement (.trowsum a0) := of_packX rfl
theorem tcolsum a0 : Statement (.tcolsum a0) := of_packX rfl
theorem trowmax a0 : Statement (.trowmax a0) := of_packX rfl
theorem ttrans a0 : Statement (.ttrans a0) := of_packX rfl
theorem tconv a0 : Statement (.tconv a0) := of_packX rfl
theorem tcopyin a0 : Statement (.tcopyin a0) := of_packX rfl
theorem tcopyout a0 : Statement (.tcopyout a0) := of_packX rfl
theorem tsync a0 : Statement (.tsync a0) := of_packX rfl
theorem tinfo a0 : Statement (.tinfo a0) := of_packX rfl
theorem mxr a0 : Statement (.mxr a0) := of_packX rfl
theorem mxz a0 : Statement (.mxz a0) := of_packX rfl
theorem mxb a0 : Statement (.mxb a0) := of_packX rfl
theorem mxa a0 : Statement (.mxa a0) := of_packX rfl
theorem mxo a0 : Statement (.mxo a0) := of_packX rfl
theorem mxw a0 : Statement (.mxw a0) := of_packX rfl
theorem xcopyFill a0 : Statement (.xcopyFill a0) := of_packX rfl
theorem xcopyDrain a0 : Statement (.xcopyDrain a0) := of_packX rfl
theorem xcopyGather a0 : Statement (.xcopyGather a0) := of_packX rfl
theorem xcopyScatter a0 : Statement (.xcopyScatter a0) := of_packX rfl
theorem xwait a0 : Statement (.xwait a0) := of_packX rfl
theorem bxfFill a0 : Statement (.bxfFill a0) := of_packX rfl
theorem bxfScale a0 : Statement (.bxfScale a0) := of_packX rfl
theorem bxfAddc a0 : Statement (.bxfAddc a0) := of_packX rfl
theorem bxfConv a0 : Statement (.bxfConv a0) := of_packX rfl
theorem bxfTrans a0 : Statement (.bxfTrans a0) := of_packX rfl
theorem vbcstLiteral a0 a1 a2 : Statement (.vbcstLiteral a0 a1 a2) := of_packXL rfl
theorem tfillLiteral a0 a1 : Statement (.tfillLiteral a0 a1) := of_packXL rfl
theorem streamDeadlock a0 a1 : Statement (.streamDeadlock a0 a1) := of_none rfl
theorem watchdogExpiry a0 a1 : Statement (.watchdogExpiry a0 a1) := of_none rfl
theorem waitDeadline a0 a1 : Statement (.waitDeadline a0 a1) := of_none rfl
theorem alarmFires a0 a1 : Statement (.alarmFires a0 a1) := of_none rfl
theorem messageArrival a0 : Statement (.messageArrival a0) := of_none rfl
theorem gainUpdateArrival a0 : Statement (.gainUpdateArrival a0) := of_none rfl
theorem heapPop a0 a1 : Statement (.heapPop a0 a1) := of_none rfl
theorem spawnOfferArrival a0 : Statement (.spawnOfferArrival a0) := of_none rfl
theorem spawnAnswer a0 : Statement (.spawnAnswer a0) := of_none rfl
theorem keyUpdateArrival a0 : Statement (.keyUpdateArrival a0) := of_none rfl
theorem overflowRegionMove a0 a1 a2 : Statement (.overflowRegionMove a0 a1 a2) := of_none rfl
theorem roundGather a0 : Statement (.roundGather a0) := of_none rfl
theorem stopArrival a0 a1 : Statement (.stopArrival a0 a1) := of_none rfl
theorem finalGather a0 : Statement (.finalGather a0) := of_none rfl
theorem notify a0 a1 a2 : Statement (.notify a0 a1 a2) := of_none rfl
theorem queueMap a0 a1 a2 : Statement (.queueMap a0 a1 a2) := of_none rfl
theorem queueUnmap a0 a1 : Statement (.queueUnmap a0 a1) := of_none rfl
theorem launchAccept a0 a1 a2 : Statement (.launchAccept a0 a1 a2) := of_none rfl
theorem bindRecordWrite a0 a1 a2 a3 : Statement (.bindRecordWrite a0 a1 a2 a3) := of_none rfl
theorem unbindRequest a0 a1 : Statement (.unbindRequest a0 a1) := of_none rfl
theorem preemption a0 a1 : Statement (.preemption a0 a1) := of_none rfl
theorem agingLimit a0 a1 : Statement (.agingLimit a0 a1) := of_none rfl
theorem waitLimit a0 a1 : Statement (.waitLimit a0 a1) := of_none rfl
theorem parkedRebind a0 a1 a2 : Statement (.parkedRebind a0 a1 a2) := of_none rfl
theorem dependencyDeadlock a0 : Statement (.dependencyDeadlock a0) := of_none rfl
theorem kernelFault a0 a1 : Statement (.kernelFault a0 a1) := of_none rfl
theorem contextResume a0 a1 : Statement (.contextResume a0 a1) := of_none rfl
theorem fillBegins a0 a1 a2 : Statement (.fillBegins a0 a1 a2) := of_none rfl
theorem fillCompletes a0 a1 a2 : Statement (.fillCompletes a0 a1 a2) := of_none rfl
theorem drainBegins a0 a1 : Statement (.drainBegins a0 a1) := of_none rfl
theorem drainCompletes a0 a1 : Statement (.drainCompletes a0 a1) := of_none rfl
theorem commandFault a0 a1 a2 : Statement (.commandFault a0 a1 a2) := of_none rfl
theorem chunkLoaded a0 : Statement (.chunkLoaded a0) := of_none rfl
theorem chunkForward a0 : Statement (.chunkForward a0) := of_none rfl
theorem accumulate a0 : Statement (.accumulate a0) := of_none rfl
theorem tensorOperationPerformed a0 : Statement (.tensorOperationPerformed a0) := of_none rfl
theorem formManagerDecision a0 a1 : Statement (.formManagerDecision a0 a1) := of_none rfl
theorem completionNotice a0 a1 a2 : Statement (.completionNotice a0 a1 a2) := of_none rfl
theorem moveRequest a0 a1 : Statement (.moveRequest a0 a1) := of_none rfl
theorem moveComplete a0 : Statement (.moveComplete a0) := of_none rfl
theorem moveAbandoned a0 : Statement (.moveAbandoned a0) := of_none rfl
theorem shutterExpiry a0 : Statement (.shutterExpiry a0) := of_none rfl
theorem redirectNotice a0 a1 : Statement (.redirectNotice a0 a1) := of_none rfl
theorem shootdownPage a0 a1 : Statement (.shootdownPage a0 a1) := of_none rfl
theorem shootdownSubpage a0 a1 : Statement (.shootdownSubpage a0 a1) := of_none rfl
theorem shootdownAsid a0 a1 : Statement (.shootdownAsid a0 a1) := of_none rfl
theorem shootdownAll a0 : Statement (.shootdownAll a0) := of_none rfl
theorem shootdownComplete a0 : Statement (.shootdownComplete a0) := of_none rfl
theorem statusWrite a0 : Statement (.statusWrite a0) := of_none rfl
theorem eventCounterWrite a0 a1 a2 : Statement (.eventCounterWrite a0 a1 a2) := of_none rfl
theorem tileTableWrite a0 a1 : Statement (.tileTableWrite a0 a1) := of_none rfl
theorem pageFaultSlotWrite a0 a1 : Statement (.pageFaultSlotWrite a0 a1) := of_none rfl
theorem registerWrite a0 a1 : Statement (.registerWrite a0 a1) := of_none rfl
theorem sysqWrite a0 a1 : Statement (.sysqWrite a0 a1) := of_none rfl
theorem sysqheadWrite a0 a1 : Statement (.sysqheadWrite a0 a1) := of_none rfl
theorem sysrtokWrite a0 a1 a2 : Statement (.sysrtokWrite a0 a1 a2) := of_none rfl
theorem errorLogHeaderWrite a0 a1 : Statement (.errorLogHeaderWrite a0 a1) := of_none rfl
theorem errorLogEntryWrite a0 a1 a2 : Statement (.errorLogEntryWrite a0 a1 a2) := of_none rfl
theorem injctlWrite a0 a1 : Statement (.injctlWrite a0 a1) := of_none rfl
theorem pwrctlWrite a0 a1 : Statement (.pwrctlWrite a0 a1) := of_none rfl
theorem powerWindow a0 a1 a2 a3 : Statement (.powerWindow a0 a1 a2 a3) := of_none rfl
theorem thermalCap a0 a1 : Statement (.thermalCap a0 a1) := of_none rfl
theorem flitReceived a0 a1 a2 a3 : Statement (.flitReceived a0 a1 a2 a3) := of_none rfl
theorem retrainComplete a0 a1 : Statement (.retrainComplete a0 a1) := of_none rfl
theorem frameSend a0 a1 a2 : Statement (.frameSend a0 a1 a2) := of_none rfl
theorem frameReceived a0 a1 a2 : Statement (.frameReceived a0 a1 a2) := of_none rfl
theorem endpointWrite a0 a1 a2 : Statement (.endpointWrite a0 a1 a2) := of_none rfl
theorem endpointMsi a0 a1 a2 : Statement (.endpointMsi a0 a1 a2) := of_none rfl
theorem readCompletion a0 a1 a2 : Statement (.readCompletion a0 a1 a2) := of_none rfl
theorem atomicopCompletion a0 a1 a2 a3 : Statement (.atomicopCompletion a0 a1 a2 a3) := of_none rfl
theorem reset a0 a1 : Statement (.reset a0 a1) := of_none rfl
theorem recoveryImage a0 a1 : Statement (.recoveryImage a0 a1) := of_none rfl
theorem computeDieRelease a0 : Statement (.computeDieRelease a0) := of_none rfl
theorem attestationRequest a0 a1 : Statement (.attestationRequest a0 a1) := of_none rfl
theorem undefinedEncoding : Statement .undefinedEncoding := of_none rfl
theorem accumulatorZeroed a0 : Statement (.accumulatorZeroed a0) := of_none rfl
theorem accumulatorConverted a0 : Statement (.accumulatorConverted a0) := of_none rfl
theorem linkTrained a0 : Statement (.linkTrained a0) := of_none rfl
theorem endpointMemoryRead a0 a1 a2 : Statement (.endpointMemoryRead a0 a1 a2) := of_none rfl
theorem temperatureFalls a0 : Statement (.temperatureFalls a0) := of_none rfl

end Sys2Proof.Laws.Length
end

