-- ==== Sys2Proof/Laws/Turns.lean ====
section
/-! SUPPORT. Turns of contexts: what taking the issue slot changes, and which of the forms of a turn a context has. -/

namespace Sys2Proof.Machine

@[simp] theorem given_st (s : State) : s.given.slot.st = s.slot.st := rfl
@[simp] theorem given_issues (s : State) : s.given.slot.par.issues = true := rfl
@[simp] theorem given_pc (s : State) : s.given.slot.pc = s.slot.pc := rfl
@[simp] theorem given_w (s : State) : s.given.slot.w = s.slot.w := rfl

@[simp] theorem tick_mem (s : State) : s.tick.mem = s.mem := rfl
@[simp] theorem tick_slot (s : State) : s.tick.slot = s.slot := rfl
@[simp] theorem tick_core (s : State) : s.tick.core = s.core := rfl
@[simp] theorem tick_coreId (s : State) : s.tick.coreId = s.coreId := rfl
@[simp] theorem tick_slotId (s : State) : s.tick.slotId = s.slotId := rfl

/-- A context that holds its core's issue slot runs. -/
theorem issueTurn_of_holder {s : State} (h : s.slot.st = .active) (k : s.slot.par.issues = true) : issueTurn s = contextTurn s := by
  simp [issueTurn, h, k]

/-- An ACTIVE context that does not hold it takes it first. -/
theorem issueTurn_of_active {s : State} (h : s.slot.st = .active) (k : s.slot.par.issues = false) : issueTurn s = takingTurn s := by
  simp [issueTurn, h, k]

/-- A waiting context goes on waiting, or takes the issue slot to end its wait. -/
theorem issueTurn_of_waiting {s : State} (h : s.slot.st = .waiting) :
    issueTurn s = if s.readyAt contextTurn s.slotId then takingTurn s else contextTurn s := by
  simp [issueTurn, h]

/-- A context with no load pending has its turn as it is. -/
theorem lateTurn_of_none {body : State → Result} {s : State} (h : s.pendingHere = []) : lateTurn body s = body s := by
  simp [lateTurn, h]

/-- With an empty agenda a step is the focused context's turn. -/
theorem step_of_idle_agenda {s : State} (h : s.agenda = []) : step s = ticked (lateTurn issueTurn s) := by
  simp [step, h]

/-- What an image is to do does not happen while it does not run (R417, log 55). -/
theorem turn_of_unbooted {s : State} {i : Instr} {p k : Nat} (h : imageFor i = some (p, k)) (b : s.runsImage p k = false) :
    turn (.event i) s = .next s := by
  simp [turn, State.mayDo, h, b]

/-- With no page asked to move and no gather record waiting, page homes and the tree do nothing by themselves. -/
theorem settles_of_quiet {s : State} (h : s.pages = []) (k : ∀ p ∈ s.kernels, ∀ b ∈ p.2.barriers, b.2.due = false) : s.settles = s := by
  have d : (s.kernels.flatMap fun k => (k.2.barriers.filter (·.2.due)).map fun b => (k.1, b.1)) = [] := by
    simp only [List.flatMap_eq_nil_iff, List.map_eq_nil_iff, List.filter_eq_nil_iff]
    intro p hp b hb
    simp [k p hp b hb]
  have e : s.serve = s := by simp [State.serve, h]
  simp [State.settles, e, State.treesRetry, d]

/-- With no page asked to move, no request is kept. -/
theorem letThrough_of_none {s t : State} (h : s.pages = []) (r : PageReq) : t.letThrough s r = t := by
  simp [State.letThrough, h]

end Sys2Proof.Machine
end

