-- ==== Sys2Proof/Tests/Slice0.lean ====
section
/-! SUPPORT. Tests: words decoded, terms that are not well formed, and for every statement with hypotheses a state and
operands that meet them. -/

open Sys2Proof Sys2Proof.Machine

namespace Sys2Proof.Tests.Slice0

set_option Elab.async false

/-! ### A small state -/

/-- One ACTIVE context of a kernel on core 0, its scratchpad code at window offset 0x2000. -/
def st : State := State.reset.withFetchWord 32 0x00882500

/-- The same with two registers set. -/
def stW (x y : Word) : State := { st with slot := { st.slot with w := (st.slot.w.set 1 x).set 2 y } }

/-- A state with nothing of the vector stream outstanding issues what passes its decoding checks. -/
theorem issues {s : State} (h : s.Clear) {c : Checks} {ops : List SOpd} {p : Pace} (hc : s.decodeTrap c = .ok ()) :
    s.Issues c ops p s := State.issues_of_clear h hc ops p

/-! ### Decoding: words written out from the encoding tables -/

/-- R48, R58, R59: add w5, w1, w2 is func 001, b 2, a 1, d 5, major 00. -/
theorem test_decode_add : decode [0b000000001_00010_00001_00101_000000_00#32] = .ok (.add (.w 5) (.w 1) (.w 2)) := rfl
/-- R59: popc w1, w2 is major 01, func 000. -/
theorem test_decode_popc : decode [0b000000000_00000_00010_00001_000001_00#32] = .ok (.popc (.w 1) (.w 2)) := rfl
/-- R48: addi w1, w2, −1. -/
theorem test_decode_addi : decode [0b11111111111111_00010_00001_000010_00#32] = .ok (.addi (.w 1) (.w 2) (-1)) := rfl
/-- R45: addi with a literal, the low half first. -/
theorem test_decode_literal : decode [0b00000000000000_00001_00101_000010_01#32, 0x9ABCDEF0, 0x12345678]
    = .ok (.addiLiteral (.w 5) (.w 1) 0x123456789ABCDEF0) := rfl
/-- R58: beq w1, w2 three words on. -/
theorem test_decode_beq : decode [0b00000000000011_00010_00001_001111_00#32] = .ok (.beq (.w 1) (.w 2) 3) := rfl
/-- R58: ld.d w3, at w4 plus 8 × −2. -/
theorem test_decode_ldD : decode [0b11111111111110_00100_00011_100001_00#32] = .ok (.ldD (.w 3) (.w 4) (-2)) := rfl
/-- R58: j 0xC5 words on. -/
theorem test_decode_j : decode [0b000000000000000011000101_011000_00#32] = .ok (.j 0xC5) := rfl
/-- R59: vadd.f32 is VFP 0x000. -/
theorem test_decode_vadd : decode [0b000000000_00011_00010_00001_101110_00#32] = .ok (.vadd .f32 (.v 1) (.v 2) (.v 3)) := rfl
/-- R51: tfree w3: OA of scalar class, index 3, in bits 30 to 24 of word 0. -/
theorem test_decode_tfree : decode [0b0_0000011_0000000_000000001_111001_10#32, 0, 0]
    = .ok (.tfree { baseExt Spec.zero (.s (.w 3)) Spec.zero with me := false }) := rfl
/-- R59: INT 0x00F. -/
theorem test_decode_sra : decode [0b000001111_00011_00010_00001_000000_00#32] = .ok (.sra (.w 1) (.w 2) (.w 3)) := rfl
/-- R59: BITS 0x140 + 5. -/
theorem test_decode_fsri : decode [0b101000101_00011_00010_00001_000001_00#32] = .ok (.fsri (.w 1) (.w 2) (.w 3) 5) := rfl
/-- R58: major 07, IMM[7:6] = 01, count 9. -/
theorem test_decode_srli : decode [0b00000001001001_00010_00001_000111_00#32] = .ok (.srli (.w 1) (.w 2) 9) := rfl
/-- R58: major 0B. -/
theorem test_decode_jalr : decode [0b00000000000101_10111_00000_001011_00#32] = .ok (.jalr (.w 0) (.w 23) 5) := rfl
/-- R58: major 0D, CR 0x145. -/
theorem test_decode_mtcr : decode [0b00000101000101_00111_00000_001101_00#32] = .ok (.mtcr 0x145 (.w 7)) := rfl
/-- R58: major 1A, AF and BF FP32. -/
theorem test_decode_cue : decode [0b000000000000000010011001_011010_00#32] = .ok (.cue 0x99) := rfl
/-- R58: major 28. -/
theorem test_decode_vst : decode [0b11111111111111_00100_00011_101000_00#32] = .ok (.vst (.v 3) 4 (-1)) := rfl
/-- R59: CTL 0x005. -/
theorem test_decode_wpx : decode [0b000000101_00000_00010_00000_101001_00#32] = .ok (.wpx (.w 2)) := rfl
/-- R59: LNK 0x000. -/
theorem test_decode_lclaim : decode [0b000000000_00000_00000_00110_101101_00#32] = .ok (.lclaim (.w 6)) := rfl
/-- R59: VPAIR 0x011. -/
theorem test_decode_vcdot : decode [0b000010001_00011_00010_00100_101111_00#32] = .ok (.vcdot (.v 4) (.v 2) (.v 3)) := rfl
/-- R59: VRED 4 × 3 + 1. -/
theorem test_decode_vscan : decode [0b000001101_00000_00010_00001_110000_00#32] = .ok (.vscan .bf16 (.v 1) (.v 2)) := rfl
/-- R59: VINT 4 × 8 + 3. -/
theorem test_decode_visll : decode [0b000100011_00011_00010_00001_110001_00#32] = .ok (.visll .d (.v 1) (.v 2) (.v 3)) := rfl
/-- R59: VCMP 0x020 + 4 + 2. -/
theorem test_decode_vilt : decode [0b000100110_00011_00010_01001_110010_00#32] = .ok (.vilt .w (.w 9) (.v 2) (.v 3)) := rfl
/-- R59: VCVT 0x003. -/
theorem test_decode_vpack : decode [0b000000011_00011_00010_00001_110011_00#32] = .ok (.vpack (.v 1) (.v 2) (.v 3)) := rfl
/-- R59: VAPX 0x002. -/
theorem test_decode_vexp2 : decode [0b000000010_00000_00010_00001_110100_00#32] = .ok (.vexp2 (.v 1) (.v 2)) := rfl
/-- R59: VPERM 0x004 + 4 × 3 + 1. -/
theorem test_decode_vext : decode [0b000010001_00011_00010_00001_110101_00#32] = .ok (.vext .h (.w 1) (.v 2) (.w 3)) := rfl
/-- R59: VDATA 0x001. -/
theorem test_decode_vexpd : decode [0b000000001_00011_00010_00001_110110_00#32] = .ok (.vexpd (.v 1) (.v 2) (.w 3)) := rfl
/-- R59: VPK 2 × 3 + 1. -/
theorem test_decode_vpfma : decode [0b000000111_00011_00010_00001_111000_00#32] = .ok (.vpfma .e5m2 (.v 1) (.v 2) (.v 3)) := rfl
/-- R59: HOST 0x001. -/
theorem test_decode_alarm : decode [0b000000001_00011_00010_00000_111100_00#32] = .ok (.alarm (.w 2) (.w 3)) := rfl
/-- R59: PAGE 0x000. -/
theorem test_decode_pfetch : decode [0b000000000_00000_00010_00000_111101_00#32] = .ok (.pfetch (.w 2)) := rfl
/-- R59: DIAG 0x000. -/
theorem test_decode_evsnap : decode [0b000000000_00000_00010_00000_111110_00#32] = .ok (.evsnap (.w 2)) := rfl
/-- R59: MEMX 0x016 at `pkg`, ACQ and REL. -/
theorem test_decode_amcas : decode [0b0_0000010_0000001_000010111_101010_10#32, 0b1_1_011_000_0000_0_00000_0000100_0000011#32, 0]
    = .ok (.amcasD { baseExt (.s (.w 1)) (.s (.w 2)) (.s (.w 3)) with oc := .s (.w 4), scp := .pkg, acq := true, rel := true }) := rfl
/-- R59: SYNC 0x00A. -/
theorem test_decode_barAdd : decode [0b0_0000010_0000000_000001010_101011_10#32, 0b0_0_000_000_0000_0_00000_0000000_0000011#32, 0]
    = .ok (.barAdd (baseExt (Spec.zero) (.s (.w 2)) (.s (.w 3)))) := rfl
/-- R59: PAR 0x006, IMM 2. -/
theorem test_decode_gang : decode [0b0_0000000_0000000_000000110_101100_10#32, 0, 2]
    = .ok (.gang { baseExt (Spec.zero) (Spec.zero) (Spec.zero) with imm := 2 }) := rfl
/-- R59: VFP 0x000, masked by w5 and zeroing, rounding up. -/
theorem test_decode_vaddExt : decode [0b1_0100010_0100001_000000000_101110_10#32, 0b0_0_000_011_0000_1_00101_0000000_0100011#32, 0]
    = .ok (.vaddExt .f32 { baseExt (.v (.v 1)) (.v (.v 2)) (.v (.v 3)) with me := true, z := true, mask := 5, ro := some .rup }) := rfl
/-- R59: VMEM 0x007, tile 9, FP16. -/
theorem test_decode_vldt : decode [0b0_1001001_0100001_000000111_110111_10#32, 0b0_0_000_000_1000_0_00000_0000000_0000100#32, 0]
    = .ok (.vldt { baseExt (.v (.v 1)) (.t 9) (.s (.w 4)) with et := .fp16 }) := rfl
/-- R59: MX 0x005. -/
theorem test_decode_mxw : decode [0b0_0000000_0000001_000000101_111010_10#32, 0, 0] = .ok (.mxw (baseExt (.s (.w 1)) (Spec.zero) (Spec.zero))) := rfl
/-- R59: ENG 0x000, mode 3, one row. -/
theorem test_decode_xcopy : decode [0b0_0000010_1000011_000000000_111011_10#32, 0b0_0_000_000_0000_0_00000_0000000_0000100#32, 11]
    = .ok (.xcopyScatter { baseExt (.t 3) (.s (.w 2)) (.s (.w 4)) with imm := 11 }) := rfl
/-- R59: VPERM 0x004 + 2 at LEN 11. -/
theorem test_decode_vbcstLiteral : decode [0b0_0000000_0100001_000000110_110101_11#32, 0, 0, 0x55667788, 0x11223344]
    = .ok (.vbcstLiteral .w (baseExt (.v (.v 1)) (Spec.zero) (Spec.zero)) 0x1122334455667788) := rfl
/-- R50: a reserved major. -/
theorem test_decode_reserved : decode [0xFFFFFFFC] = .error .undefined := rfl
/-- R55: a field that `tfree` does not use. -/
theorem test_decode_unused : decode [0b0_0000011_0000000_000000001_111001_10#32, 0, 1] = .error .reservedField := rfl
/-- The table numbers a later word's bits on from the first. -/
theorem test_table_word : decodeTableWord 96 (0x030001E6 + 1 * 2 ^ 64) = none := rfl

/-! ### Terms that are not well formed -/

/-- An event has no words. -/
theorem test_ill_event : (Instr.heapPop 0 0).wellFormed = false := rfl
/-- R105: cmovz to a queue. -/
theorem test_ill_cmovz : (Instr.cmovz (.q 0) (.w 1) (.w 2)).wellFormed = false := rfl
/-- R112: a field past bit 63. -/
theorem test_ill_bfx : (Instr.bfx (.w 1) (.w 2) 60 4 false).wellFormed = false := rfl
/-- R112: bfi to a link. -/
theorem test_ill_bfi : (Instr.bfi (.link .n) (.w 2) 0 0).wellFormed = false := rfl
/-- R128: a cue with bits above 18. -/
theorem test_ill_cue : (Instr.cue 0x80000).wellFormed = false := rfl
/-- R176: a vloop of no entry. -/
theorem test_ill_vloop : (Instr.vloop 0 3).wellFormed = false := rfl
/-- R176: a vloop that counts by w0. -/
theorem test_ill_vloopRegister : (Instr.vloopRegister 2 (.w 0)).wellFormed = false := rfl
/-- R390: a prefetch from a queue. -/
theorem test_ill_pfetch : (Instr.pfetch (.q 2)).wellFormed = false := rfl
/-- R155: a group wider than the lanes. -/
theorem test_ill_vgmax : (Instr.vgmax .f32 (.v 1) (.v 2) 4).wellFormed = false := rfl
/-- R55: an unused field. -/
theorem test_ill_unused : (Instr.ungang { baseExt Spec.zero Spec.zero Spec.zero with imm := 1 }).wellFormed = false := rfl
/-- R55: Z without ME. -/
theorem test_ill_z : (Instr.vmovExt { baseExt (.v (.v 1)) (.v (.v 2)) Spec.zero with z := true }).wellFormed = false := rfl

/-! ### States and operands that meet the hypotheses: scalar instructions -/

/-- The shape of two sources, on registers. -/
theorem witness_twoSource : ∃ w, (stW 5 7).Issues (scalarChecks [.w 1, .w 2] [.w 3]) [.w 3, .w 1, .w 2] .free (stW 5 7) ∧
    (stW 5 7).twiceCheck (linksOf [.w 1, .w 2]) = .ok () ∧ (stW 5 7).readS (.w 1) = .ok (5, stW 5 7) ∧
    (stW 5 7).readS (.w 2) = .ok (7, stW 5 7) ∧ (stW 5 7).writeS (.w 3) 12 = .ok w :=
  ⟨_, issues (by rfl) rfl, rfl, rfl, rfl, rfl⟩

/-- A state whose queues hold something. -/
def stQ : State := { stW 5 7 with slot := { (stW 5 7).slot with q2 := [8], q3 := [9] } }

/-- The shape of two sources, on the queues. -/
theorem witness_twoSource_queues : ∃ u v w, stQ.Issues (scalarChecks [.q 2, .q 3] [.q 0]) [.q 0, .q 2, .q 3] .free stQ ∧
    stQ.twiceCheck (linksOf [.q 2, .q 3]) = .ok () ∧ stQ.readS (.q 2) = .ok (8, u) ∧ State.readS u (.q 3) = .ok (9, v) ∧
    State.writeS v (.q 0) 17 = .ok w :=
  ⟨_, _, _, issues (by rfl) rfl, rfl, rfl, rfl, rfl⟩

/-- The shape of one source. -/
theorem witness_oneSource : ∃ v, (stW 5 7).Issues (scalarChecks [.w 1] [.w 23]) [.w 23, .w 1] .free (stW 5 7) ∧
    (stW 5 7).readS (.w 1) = .ok (5, stW 5 7) ∧ (stW 5 7).writeS (.w 23) (~~~5) = .ok v :=
  ⟨_, issues (by rfl) rfl, rfl, rfl⟩

/-- R15: the same with w0 as the destination. -/
theorem witness_oneSource_zero : ∃ v, (stW 5 7).Issues (scalarChecks [.w 1] [.w 0]) [.w 0, .w 1] .free (stW 5 7) ∧
    (stW 5 7).readS (.w 1) = .ok (5, stW 5 7) ∧ (stW 5 7).writeS (.w 0) 5 = .ok v :=
  ⟨_, issues (by rfl) rfl, rfl, rfl⟩

/-- The conditions of the frame of the register forms. -/
theorem witness_registerForms : (stW 5 7).Clear ∧ pp (stW 5 7).slot.status = false := ⟨rfl, rfl⟩

/-- A conditional move whose condition is on 0, and on another value. -/
theorem witness_conditionalMove : ∃ w, (stW 5 0).Issues (scalarChecks [.w 1, .w 2] [.w 3]) [.w 3, .w 1, .w 2] .free (stW 5 0) ∧
    (stW 5 1).Issues (scalarChecks [.w 1, .w 2] [.w 3]) [.w 3, .w 1, .w 2] .free (stW 5 1) ∧
    (stW 5 0).twiceCheck (linksOf [.w 1, .w 2]) = .ok () ∧ (stW 5 0).readS (.w 1) = .ok (5, stW 5 0) ∧
    (stW 5 0).readS (.w 2) = .ok (0, stW 5 0) ∧ (stW 5 1).readS (.w 2) = .ok (1, stW 5 1) ∧ (stW 5 0).writeS (.w 3) 5 = .ok w :=
  ⟨_, issues (by rfl) rfl, issues (by rfl) rfl, rfl, rfl, rfl, rfl, rfl⟩

/-- R105: a sum that the format does not hold. -/
theorem witness_addsat : ∃ w, (stW 0x7FFFFFFFFFFFFFFF 1).Issues (scalarChecks [.w 1, .w 2] [.w 3]) [.w 3, .w 1, .w 2] .free (stW 0x7FFFFFFFFFFFFFFF 1) ∧
    (stW 0x7FFFFFFFFFFFFFFF 1).twiceCheck (linksOf [.w 1, .w 2]) = .ok () ∧
    (stW 0x7FFFFFFFFFFFFFFF 1).readS (.w 1) = .ok (0x7FFFFFFFFFFFFFFF, stW 0x7FFFFFFFFFFFFFFF 1) ∧
    (stW 0x7FFFFFFFFFFFFFFF 1).readS (.w 2) = .ok (1, stW 0x7FFFFFFFFFFFFFFF 1) ∧
    (0x7FFFFFFFFFFFFFFF#64).toInt = max (-2 ^ 63) (min (2 ^ 63 - 1) ((0x7FFFFFFFFFFFFFFF#64).toInt + (1#64).toInt)) ∧
    (stW 0x7FFFFFFFFFFFFFFF 1).writeS (.w 3) 0x7FFFFFFFFFFFFFFF = .ok w :=
  ⟨_, issues (by rfl) rfl, rfl, rfl, rfl, by decide, rfl⟩

/-- STATUS.AEN enables the event of a zero divisor (R103). -/
def stDiv : State := { stW 5 0 with slot := { (stW 5 0).slot with status := 0x0000000200000000 } }

/-- A division whose divisor is not zero. -/
theorem witness_division : ∃ w, (stW 5 2).Issues (scalarChecks [.w 1, .w 2] [.w 3]) [.w 3, .w 1, .w 2]
      (if divTrapEnabled (stW 5 2).slot.status then .drain else .free) (stW 5 2) ∧ (stW 5 2).twiceCheck (linksOf [.w 1, .w 2]) = .ok () ∧
    (stW 5 2).readS (.w 1) = .ok (5, stW 5 2) ∧ (stW 5 2).readS (.w 2) = .ok (2, stW 5 2) ∧ (2 : Word) ≠ 0 ∧
    (stW 5 2).writeS (.w 3) 2 = .ok w :=
  ⟨_, issues (by rfl) rfl, rfl, rfl, rfl, by decide, rfl⟩

/-- A zero divisor without a trap. -/
theorem witness_division_zero : ∃ w, (stW 5 0).Issues (scalarChecks [.w 1, .w 2] [.w 3]) [.w 3, .w 1, .w 2]
      (if divTrapEnabled (stW 5 0).slot.status then .drain else .free) (stW 5 0) ∧ (stW 5 0).readS (.w 2) = .ok (0, stW 5 0) ∧
    (stW 5 0).writeS (.w 3) (BitVec.allOnes 64) = .ok w ∧ raisedEvents (State.slot w).status [Ev.divZero] = 0 :=
  ⟨_, issues (by rfl) rfl, rfl, rfl, rfl⟩

/-- A zero divisor with a trap. -/
theorem witness_division_trap : ∃ w, stDiv.Issues (scalarChecks [.w 1, .w 2] [.w 3]) [.w 3, .w 1, .w 2]
      (if divTrapEnabled stDiv.slot.status then .drain else .free) stDiv ∧ stDiv.readS (.w 2) = .ok (0, stDiv) ∧
    stDiv.writeS (.w 3) (BitVec.allOnes 64) = .ok w ∧ raisedEvents (State.slot w).status [Ev.divZero] ≠ 0 :=
  ⟨_, issues (by rfl) rfl, rfl, rfl, (by decide : (2 : BitVec 7) ≠ 0)⟩

/-- bfi of the top bit. -/
theorem witness_bfi : ∃ w, (stW 5 7).Issues (scalarChecks [.w 1] [.w 2]) [.w 2, .w 1] .free (stW 5 7) ∧ (63#6).toNat + (0#6).toNat < 64 ∧
    (stW 5 7).readS (.w 1) = .ok (5, stW 5 7) ∧ (stW 5 7).readS (.w 2) = .ok (7, stW 5 7) ∧
    (∀ i, i < 64 → (0x8000000000000007#64).getLsbD i
      = if 63 ≤ i ∧ i < 63 + 0 + 1 then (5#64).getLsbD (i - 63) else (7#64).getLsbD i) ∧
    (stW 5 7).writeS (.w 2) 0x8000000000000007 = .ok w :=
  ⟨_, issues (by rfl) rfl, by decide, rfl, rfl, by decide, rfl⟩

/-- lpc. -/
theorem witness_lpc : ∃ u, st.Issues (scalarChecks [] [.w 4]) [.w 4] .free st ∧
    st.writeS (.w 4) ((st.slot.pc &&& ~~~0xFFF) + (0x40000#19).signExtend 64 * 4096) = .ok u :=
  ⟨_, issues (by rfl) rfl, rfl⟩

/-- A branch on equal operands, and on operands that differ. -/
theorem witness_branch : (stW 1 1).Issues (scalarChecks [.w 1, .w 2] []) [.w 1, .w 2] .free (stW 1 1) ∧
    (stW 1 2).Issues (scalarChecks [.w 1, .w 2] []) [.w 1, .w 2] .free (stW 1 2) ∧
    (stW 1 1).twiceCheck (linksOf [.w 1, .w 2]) = .ok () ∧ (stW 1 1).readS (.w 1) = .ok (1, stW 1 1) ∧
    (stW 1 1).readS (.w 2) = .ok (1, stW 1 1) ∧ (stW 1 2).readS (.w 2) = .ok (2, stW 1 2) :=
  ⟨issues (by rfl) rfl, issues (by rfl) rfl, rfl, rfl, rfl, rfl⟩

/-- j and jal. -/
theorem witness_jumps : ∃ u, st.Issues {} [] .free st ∧ st.Issues {} [.w 23] .free st ∧ st.writeS (.w 23) (st.slot.pc + 4) = .ok u :=
  ⟨_, issues (by rfl) rfl, issues (by rfl) rfl, rfl⟩

/-- jalr to a target that is a multiple of 4. -/
theorem witness_jalr : ∃ v, (stW 8 0).Issues (scalarChecks [.w 1] [.w 3]) [.w 3, .w 1] .free (stW 8 0) ∧
    (stW 8 0).readS (.w 1) = .ok (8, stW 8 0) ∧ ((8 : Word) + (0x3FFF#14).signExtend 64 * 4).toNat % 4 = 0 ∧
    (stW 8 0).writeS (.w 3) ((stW 8 0).slot.pc + 4) = .ok v :=
  ⟨_, issues (by rfl) rfl, rfl, by decide, rfl⟩

/-- jalr to another. -/
theorem witness_jalr_trap : (stW 7 0).Issues (scalarChecks [.w 1] [.w 3]) [.w 3, .w 1] .free (stW 7 0) ∧
    (stW 7 0).readS (.w 1) = .ok (7, stW 7 0) ∧ ((7 : Word) + (0x3FFF#14).signExtend 64 * 4).toNat % 4 ≠ 0 :=
  ⟨issues (by rfl) rfl, rfl, by decide⟩

/-- A queue of n entries. -/
def pushed (n : Nat) : State := { st with slot := { st.slot with q0 := List.replicate n ⟨0, st.slot.here⟩, q1 := List.replicate n ⟨0, st.slot.here⟩ } }

/-- R29: room for one more, and none. -/
theorem witness_queues : (pushed 7).slot.q0.length < 8 ∧ (pushed 7).slot.q1.length < 8 ∧ (pushed 8).slot.q0.length ≥ 8 ∧
    (pushed 8).slot.q1.length ≥ 8 ∧ stQ.slot.q2 = [8] ∧ stQ.slot.q3 = [9] ∧ st.slot.q2 = [] ∧ st.slot.q3 = [] :=
  by decide

/-- Whether an act succeeds. -/
def succeeds {α : Type} (r : Act α) : Bool := match r with | .ok _ => true | .error _ => false

theorem exists_of_succeeds {α : Type} {r : Act α} (h : succeeds r = true) : ∃ a, r = .ok a := by
  cases r with
  | ok a => exact ⟨a, rfl⟩
  | error e => cases h

theorem exists_of_succeeds₂ {α β : Type} {r : Act (α × β)} (h : succeeds r = true) : ∃ a b, r = .ok (a, b) := by
  obtain ⟨⟨a, b⟩, h⟩ := exists_of_succeeds h
  exact ⟨a, b, h⟩

/-- Whether an act traps. -/
def traps {α : Type} (r : Act α) : Bool := match r with | .error (.trap _) => true | _ => false

theorem exists_of_traps {α : Type} {r : Act α} (h : traps r = true) : ∃ k, r = .error (.trap k) := by
  unfold traps at h
  split at h
  · exact ⟨_, rfl⟩
  · cases h

/-! ### Loads, stores and atomics -/

/-- The last 8 bytes of the scratchpad, at window offset 0x5FFF8, and a value. -/
def stM : State := stW 0xFFFFFFFFF5FFF0 0x1122334455667788

/-- A load of 8 bytes. -/
theorem witness_load : ∃ x v w, stM.Issues (scalarChecks [.w 1] [.w 3]) [.w 3, .w 1] .load stM ∧ stM.readS (.w 1) = .ok (0xFFFFFFFFF5FFF0, stM) ∧
    stM.loadWord .plain (0xFFFFFFFFF5FFF0 + (1#14).signExtend 64 * BitVec.ofNat 64 8) 8 = .ok (x, v) ∧ State.writeS v (.w 3) x = .ok w := by
  obtain ⟨x, v, h⟩ := exists_of_succeeds₂ (r := stM.loadWord .plain (0xFFFFFFFFF5FFF0 + (1#14).signExtend 64 * BitVec.ofNat 64 8) 8)
    (by decide +kernel)
  exact ⟨x, v, _, issues (by rfl) rfl, rfl, h, rfl⟩

/-- A store of 8 bytes. -/
theorem witness_store : ∃ w, stM.Issues (scalarChecks [.w 1, .w 2] []) [.w 2, .w 1] .drain stM ∧ stM.twiceCheck (linksOf [.w 1, .w 2]) = .ok () ∧
    stM.readS (.w 1) = .ok (0xFFFFFFFFF5FFF0, stM) ∧ stM.readS (.w 2) = .ok (0x1122334455667788, stM) ∧
    stM.storeWord none (0xFFFFFFFFF5FFF0 + (1#14).signExtend 64 * BitVec.ofNat 64 8) 8 0x1122334455667788 = .ok w := by
  obtain ⟨w, h⟩ := exists_of_succeeds (r := stM.storeWord none (0xFFFFFFFFF5FFF0 + (1#14).signExtend 64 * BitVec.ofNat 64 8) 8
    0x1122334455667788) (by decide +kernel)
  exact ⟨w, issues (by rfl) rfl, rfl, rfl, rfl, h⟩

/-- A load in the window, at the scratchpad's end. -/
theorem witness_windowLoad : stM.coreId < 18432 ∧ 8 ∈ [1, 2, 4, 8] ∧ 0x5FFF8 % 8 = 0 ∧ 0x5FFF8 + 8 ≤ 0x60000 ∧
    stM.inImage stM.coreId 0x5FFF8 8 = false ∧ stM.flips = [] ∧
    stM.underTile (spKey stM.coreId 0x5FFF8) 8 = false ∧
    newerThan (stM.counts stM.self) (stM.hist.filter (·.touches (spKey stM.coreId 0x5FFF8) 8)) = [] := by decide +kernel

/-- A store in the window, and its frame at the address that it resolves to. -/
theorem witness_windowStore : stM.coreId < 18432 ∧ 8 ∈ [1, 2, 4, 8] ∧ Memory.wf stM.mem = true ∧ 0x5FFF8 + 8 ≤ 0x60000 ∧
    (∃ t, stM.storeWord none (BitVec.ofNat 64 (0xFFFFFFFFF00000 + 0x5FFF8)) 8 0x1122334455667788 = .ok t) ∧
    (∃ key u, stM.resolve false (BitVec.ofNat 64 (0xFFFFFFFFF00000 + 0x5FFF8)) 8 .store = .ok (key, u)) ∧ isIo (spKey 0 0x5FFF8) = false :=
  ⟨by decide +kernel, by decide +kernel, by decide +kernel, by decide +kernel, exists_of_succeeds (by decide +kernel),
    exists_of_succeeds₂ (by decide +kernel), by decide +kernel⟩

/-- A load and a store of 2 bytes at an odd address. -/
theorem witness_misaligned : (stW 1 7).Issues (scalarChecks [.w 1] [.w 3]) [.w 3, .w 1] .load (stW 1 7) ∧
    (stW 1 7).Issues (scalarChecks [.w 1, .w 2] []) [.w 2, .w 1] .drain (stW 1 7) ∧ (stW 1 7).twiceCheck (linksOf [.w 1, .w 2]) = .ok () ∧
    (stW 1 7).readS (.w 1) = .ok (1, stW 1 7) ∧ (stW 1 7).readS (.w 2) = .ok (7, stW 1 7) ∧
    ((1 : Word) + (0#14).signExtend 64 * BitVec.ofNat 64 2).toNat % 2 ≠ 0 :=
  ⟨issues (by rfl) rfl, issues (by rfl) rfl, rfl, rfl, rfl, by decide⟩

/-- A slot whose register image lies at 0x2000 of core 0. -/
def stImage : State := { st with slot := { st.slot with wp := 0x2000 } }

/-- R14, R251: the boundaries of the ranges of addresses. -/
theorem witness_addresses : (0x100000000000000#64).toNat ≥ 2 ^ 56 ∧ (0xFFFFFFFFF5FFFF#64).toNat = 0xFFFFFFFFF00000 + 0x5FFFF ∧
    0x5FFFF < 2 ^ 20 ∧ 0x5FFFF + 2 > 0x60000 ∧ (0xFFFFFFFFFFFFFF#64).toNat = 0xFFFFFFFFF00000 + 0xFFFFF ∧ 0xFFFFF < 2 ^ 20 ∧
    stImage.inImage stImage.coreId 0x1FFF 2 = true ∧ stImage.inImage stImage.coreId 0x1FF8 8 = false :=
  by decide +kernel

/-- A scoped load and store with both halves. -/
def ordered : Ext := { baseExt (.s (.w 3)) (.s (.w 1)) (.s (.w 2)) with scp := .die, acq := true, rel := true, imm := 8 }

/-- A scoped load: the state after its release half, and the load. -/
theorem witness_orderedLoad : stM.Issues (specChecks [ordered.oa] [ordered.od]) (scalarsOf [ordered.od, ordered.oa])
      (if ordered.acq || ordered.rel then .drain else .load) stM ∧
    stM.readS (opdOf ordered.oa) = .ok (0xFFFFFFFFF5FFF0, stM) ∧
    ∃ r y, (do
      let v ← stM.relFlag ordered
      let (r, w) ← State.loadWord v (.scoped ordered.scp) (0xFFFFFFFFF5FFF0 + ordered.imm.signExtend 64) 8
      let y ← (State.acqFlag w ordered).writeS (opdOf ordered.od) (sextBytes 8 r)
      .ok (r, y)) = (Except.ok (r, y) : Act (Word × State)) :=
  ⟨issues (by rfl) rfl, rfl, exists_of_succeeds₂ (by decide +kernel)⟩

/-- A scoped store. -/
theorem witness_orderedStore : stM.Issues (specChecks [ordered.oa, ordered.od] []) (scalarsOf [ordered.oa, ordered.od]) .drain stM ∧
    stM.twiceCheck (linksOf (scalarsOf [ordered.oa, ordered.od])) = .ok () ∧ stM.readS (opdOf ordered.oa) = .ok (0xFFFFFFFFF5FFF0, stM) ∧
    stM.readS (opdOf ordered.od) = .ok (0, stM) ∧
    ∃ y, (do
      let w ← stM.relFlag ordered
      State.storeWord w (some ordered.scp) (0xFFFFFFFFF5FFF0 + ordered.imm.signExtend 64) 8 0) = (Except.ok y : Act State) :=
  ⟨issues (by rfl) rfl, rfl, rfl, rfl, exists_of_succeeds (by decide +kernel)⟩

/-- A compare and swap. -/
theorem witness_atomic : stM.Issues (specChecks [ordered.oa, ordered.ob, ordered.oc] [ordered.od])
      (scalarsOf [ordered.od, ordered.oa, ordered.ob, ordered.oc]) .drain stM ∧
    stM.twiceCheck (linksOf (scalarsOf [ordered.oa, ordered.ob, ordered.oc])) = .ok () ∧
    stM.readS (opdOf ordered.oa) = .ok (0xFFFFFFFFF5FFF0, stM) ∧ stM.readS (opdOf ordered.ob) = .ok (0x1122334455667788, stM) ∧
    stM.readS (opdOf ordered.oc) = .ok (0, stM) ∧
    ∃ old r, (do
      let y ← stM.relFlag ordered
      let (old, z) ← State.atomic y ordered.scp (some .cas) 0xFFFFFFFFF5FFF0 8 (fun o b c => if o = c then b else o) 0x1122334455667788 0
      let r ← (State.acqFlag z ordered).writeS (opdOf ordered.od) (sextBytes 8 old)
      .ok (old, r)) = (Except.ok (old, r) : Act (Word × State)) :=
  ⟨issues (by rfl) rfl, rfl, rfl, rfl, rfl, exists_of_succeeds₂ (by decide +kernel)⟩

/-- An atomic of 4 bytes at the scratchpad's end. -/
theorem witness_windowAtomic : stM.coreId < 18432 ∧ 4 ∈ [4, 8] ∧ 0x5FFFC + 4 ≤ 0x60000 ∧ stM.flips = [] ∧ Memory.wf stM.mem = true ∧
    ∃ old t, stM.atomic .core (some .fetchAdd) (BitVec.ofNat 64 (0xFFFFFFFFF00000 + 0x5FFFC)) 4 (fun o b _ => o + b) 1 0 = .ok (old, t) :=
  ⟨by decide, by decide, by decide, rfl, by decide +kernel, exists_of_succeeds₂ (by decide +kernel)⟩

/-! ### Decoding checks, control, traps -/

/-- A state after a cue, and one in an upcall. -/
def stPp : State := { st with slot := { st.slot with status := 0x4000 } }
def stUp : State := { st with slot := { st.slot with status := 0x8000 } }

/-- Checks that trap one by one in the order of R57. -/
theorem witness_checks : pp stPp.slot.status = true ∧ pp st.slot.status = false ∧ up stUp.slot.status = true ∧
    up st.slot.status = false ∧ ({ reserved := true } : Checks).reserved = true ∧ ({} : Checks).formats = false ∧
    ({ operand := true } : Checks).operand = true ∧ ({ pair := true } : Checks).pair = true ∧ ({ queue := true } : Checks).queue = true :=
  ⟨rfl, rfl, rfl, rfl, rfl, rfl, rfl, rfl, rfl⟩

/-- cue, and vloop with an immediate and with a register. -/
theorem witness_cueAndVloop : pp st.slot.status = false ∧ st.Issues {} [] .free st ∧ pp stPp.slot.status = true ∧
    (stW 0xFFFFFFFFF 0).Issues (scalarChecks [.w 1] []) [.w 1] .free (stW 0xFFFFFFFFF 0) ∧
    (stW 0xFFFFFFFFF 0).readS (.w 1) = .ok (0xFFFFFFFFF, stW 0xFFFFFFFFF 0) :=
  ⟨rfl, issues (by rfl) rfl, rfl, issues (by rfl) rfl, rfl⟩

/-- What issues alone: yield, end, ifence and the like. -/
theorem witness_plain : st.Issues {} [] .drain st := issues (by rfl) rfl

/-- A context with a wake in its latch, and whether its deadline or a wake has ended the `wait` that it is to complete. -/
def stAwake (timedOut woke : Bool) : State :=
  { stW 1 0 with slot := { (stW 1 0).slot with par := { (stW 1 0).slot.par with wake := true, timedOut := timedOut, woke := woke } } }

/-- What a wait gives and leaves in the latch as it ends (R132): ended by its deadline, ended by a wake, and with the latch set. -/
theorem witness_wait_ends : ∀ r ∈ [(stAwake true false, true, (0 : Word)), (stAwake false true, true, 1), (stAwake false false, false, 1)],
    ∃ v, r.1.Issues (scalarChecks [.w 1] [.w 3]) [.w 3, .w 1] .drain r.1 ∧ r.1.readS (.w 1) = .ok (1, r.1) ∧
      r.1.slot.rung r.1.timeBase r.1.cycle = r.1.slot ∧
      (r.1.slot.par.timedOut = true ∧ r.2.1 = r.1.slot.par.wake ∧ r.2.2 = 0
        ∨ r.1.slot.par.timedOut = false ∧ r.1.slot.par.woke = true ∧ r.2.1 = r.1.slot.par.wake ∧ r.2.2 = 1
        ∨ r.1.slot.par.timedOut = false ∧ r.1.slot.par.woke = false ∧ r.1.slot.par.wake = true ∧ r.2.1 = false ∧ r.2.2 = 1) ∧
      (State.setPar r.1.yieldPoint { r.1.yieldPoint.slot.par with
        wake := r.2.1, waiting := none, timedOut := false, woke := false }).writeS (.w 3) r.2.2 = .ok v := by
  intro r hr
  simp only [List.mem_cons, List.not_mem_nil, or_false] at hr
  rcases hr with rfl | rfl | rfl <;> exact ⟨_, issues (by rfl) rfl, rfl, rfl, by decide +kernel, rfl⟩

/-- A wait whose deadline is here, and one that waits. -/
theorem witness_wait : ∃ w, (stW 1 0).slot.rung (stW 1 0).timeBase (stW 1 0).cycle = (stW 1 0).slot ∧
    (stW 1 0).Issues (scalarChecks [.w 0] [.w 3]) [.w 3, .w 0] .drain (stW 1 0) ∧ (stW 1 0).readS (.w 0) = .ok (0, stW 1 0) ∧
    (State.setPar (stW 1 0).yieldPoint { (stW 1 0).yieldPoint.slot.par with
      wake := false, waiting := none, timedOut := false, woke := false }).writeS (.w 3) 0 = .ok w ∧
    (stW 1 0).Issues (scalarChecks [.w 1] [.w 3]) [.w 3, .w 1] .drain (stW 1 0) ∧ (stW 1 0).readS (.w 1) = .ok (1, stW 1 0) ∧
    (stW 1 0).slot.par.timedOut = false ∧ (stW 1 0).slot.par.woke = false ∧ (stW 1 0).slot.par.wake = false ∧
    (0 : Word).toNat ≤ (stW 1 0).timeBase ∧ (stW 1 0).timeBase < (1 : Word).toNat :=
  ⟨_, rfl, issues (by rfl) rfl, rfl, rfl, issues (by rfl) rfl, rfl, by decide +kernel⟩

/-- Words poked into the workspace at 0 of core 0. -/
def poked (ws : List (Nat × Word)) (s : State) : State :=
  ws.foldl (fun s p => { s with mem := Memory.setBytes s.mem (spKey 0 p.1) (toBytes 8 p.2.toNat) }) s

/-- A workspace with a handler. -/
def stHandled : State := poked [(0x9F8, 0xFFFFFFFFF03000)] st

/-- The software trap, with a good UVEC. -/
theorem witness_trap : stHandled.Issues {} [] .drain stHandled ∧ stHandled.slot.q0 = [] ∧ stHandled.slot.q1 = [] ∧
    up stHandled.slot.status = false ∧ stHandled.slot.wp.toNat = 0 ∧ 0 % 4096 = 0 ∧ 0 ≤ 0x5F000 ∧ Memory.wf stHandled.mem = true ∧
    stHandled.wsWord 0x9F8 = 0xFFFFFFFFF03000 ∧ (0xFFFFFFFFF03000 : Word) ≠ 0 ∧ (0xFFFFFFFFF03000 : Word).toNat % 4 = 0 ∧
    (0xFFFFFFFFF03000 : Word).toNat < 2 ^ 56 ∧ ∃ v, (stHandled.advance 4).checkWs 0x9F8 8 = .ok v :=
  ⟨issues (by rfl) rfl, rfl, rfl, rfl, rfl, rfl, by decide, by decide +kernel, by decide +kernel, by decide, by decide, by decide,
    exists_of_succeeds (by decide +kernel)⟩

/-- A trap during an upcall, and one that has no vector: zero, odd, and past bit 55. -/
theorem witness_stops : up stUp.slot.status = true ∧ (0x0100#16).toNat / 256 ≠ 0x0E ∧ Memory.wf stUp.mem = true ∧ stUp.slot.wp.toNat ≤ 0x5F000 ∧
    up st.slot.status = false ∧ st.wsWord 0x9F8 = 0 ∧ st.core.pfvec = 0 ∧
    ((poked [(0x9F8, 2)] st).wsWord 0x9F8).toNat % 4 ≠ 0 ∧ ((poked [(0x9F8, 0x100000000000000)] st).wsWord 0x9F8).toNat ≥ 2 ^ 56 ∧
    ∃ t, st.checkWs 0x9F8 8 = .ok t :=
  ⟨rfl, by decide, by decide +kernel, by decide, rfl, by decide +kernel, rfl, by decide +kernel, by decide +kernel,
    exists_of_succeeds (by decide +kernel)⟩

/-- An uncorrectable error in the word that holds the vector. -/
theorem witness_vector_error : ∃ m, State.checkWs { st with
    flips := [{ array := { pkg := 0, kind := 1, inst := 0 }, word := (spKey 0 0x9F8) / 8, fatal := true }] } 0x9F8 8 = .error (.trap m) :=
  exists_of_traps (by decide +kernel)

/-- upret outside an upcall, and in one whose record is good with full queues. -/
def stRecord : State := poked [(0x900, 0x0600), (0x908, 0xFFFFFFFFF02004), (0x938, 0x4800), (0x970, 0x40004)] stUp

/-- R38. -/
theorem witness_upret : st.Issues {} [] .drain st ∧ up st.slot.status = false ∧ stRecord.Issues {} [] .drain stRecord ∧
    up stRecord.slot.status = true ∧ stRecord.faultSlot = none ∧ field (stRecord.wsWord 0x948) 16 5 = 0 ∧
    queueCountOk (stRecord.wsWord 0x970) = true ∧ rmReserved (rmField (stRecord.wsWord 0x938)) = false ∧
    succeeds (stRecord.checkWs 0x900 0xB8) = true :=
  ⟨issues (by rfl) rfl, rfl, issues (by rfl) rfl, by decide +kernel⟩

/-- A record of a page fault, whose slot is not done, or is. -/
def stFault (done : Word) : State :=
  let s := poked [(0x900, 0x0B00), (0x908, 0xFFFFFFFFF02000)] stUp
  { s with core := { s.core with pfe := s.core.pfe.set 15 done } }

/-- R361. -/
theorem witness_upret_waits : (stFault 0x8000000000000000).Issues {} [] .drain (stFault 0x8000000000000000) ∧
    (stFault 0x8000000000000000).faultSlot = some 15 ∧ ((stFault 0x8000000000000000).core.pfe[(15 : Fin 16)]).getLsbD 62 = false ∧
    (stFault 0xC000000000000000).faultSlot = some 15 ∧ ((stFault 0xC000000000000000).core.pfe[(15 : Fin 16)]).getLsbD 62 = true ∧
    field ((stFault 0xC000000000000000).wsWord 0x948) 16 5 = 0 ∧ queueCountOk ((stFault 0xC000000000000000).wsWord 0x970) = true ∧
    rmReserved (rmField ((stFault 0xC000000000000000).wsWord 0x938)) = false ∧ succeeds ((stFault 0xC000000000000000).checkWs 0x900 0xB8) = true :=
  ⟨issues (by rfl) rfl, by decide +kernel⟩

/-- A core whose slot 1 has the workspace at 0x3000. -/
def stOther : State :=
  { stW 0x3000 0x5F000 with
    core := { (stW 0x3000 0x5F000).core with slots := [(1, { Slot.reset with st := .idle, wp := 0x3000 })] } }

set_option maxRecDepth 100000 in
/-- wpx to what is no workspace, to another slot's, and to a free one: the last of the scratchpad. -/
theorem witness_wpx : stOther.Issues (scalarChecks [.w 1] []) [.w 1] .drain stOther ∧ stOther.readS (.w 1) = .ok (0x3000, stOther) ∧
    stOther.boundElsewhere 0x3000 = true ∧ stOther.readS (.w 2) = .ok (0x5F000, stOther) ∧ stOther.boundElsewhere 0x5F000 = false ∧
    (0x5F000 : Word).toNat % 4096 = 0 ∧ (0x5F000 : Word).toNat ≤ 0x5F000 ∧ (0x60000 : Word).toNat > 0x5F000 ∧ (0x3001 : Word).toNat % 4096 ≠ 0 ∧
    Memory.wf stOther.mem = true ∧ stOther.slot.wp.toNat % 4096 = 0 ∧ stOther.slot.wp.toNat ≤ 0x5F000 ∧
    ((stOther.advance 4).switchTo 0x5F000).slot.st ≠ .stopped :=
  ⟨issues (by rfl) rfl, rfl, by decide +kernel, rfl, by decide +kernel⟩

/-! ### Control registers -/

/-- mfcr and mtcr of numbers that are not assigned, and of the last ones that are. -/
theorem witness_controlRegisters : ∃ u v, st.Issues (scalarChecks [] [.w 3]) [.w 3] .drain st ∧ crAssigned (0x160#12).toNat = false ∧
    crAssigned (0x148#12).toNat = false ∧ crAssigned (0x15F#12).toNat = true ∧ st.writeS (.w 3) (st.readCr (0x15F#12).toNat) = .ok u ∧
    (stW 5 7).Issues (scalarChecks [.w 1] []) [.w 1] .drain (stW 5 7) ∧ (stW 5 7).readS (.w 1) = .ok (5, stW 5 7) ∧
    (stW 5 7).writeCr (0x15F#12).toNat 5 0 = .ok v :=
  ⟨_, _, issues (by rfl) rfl, by decide, by decide, by decide, rfl, issues (by rfl) rfl, rfl, rfl⟩

/-- R23: a reserved rounding mode, and the last that is not. -/
theorem witness_statusMove : Instr.mtcr 0 (.w 1) ∈ [Instr.mtcr 0 (.w 1), .statusWrite (.w 1)] ∧
    (stW 0x1400 0x1000).Issues (scalarChecks [.w 1] []) [.w 1] .drain (stW 0x1400 0x1000) ∧
    (stW 0x1400 0x1000).readS (.w 1) = .ok (0x1400, stW 0x1400 0x1000) ∧ 5 ≤ field 0x1400 10 3 ∧ field 0x1000 10 3 ≤ 4 :=
  ⟨List.mem_cons_self, issues (by rfl) rfl, rfl, by decide⟩

/-- The context's tag owns entry 63. -/
def stTile : State := { st with core := { st.core with tteTag := st.core.tteTag.set 63 1 } }

/-- R257: an entry that another tag owns, and the own one: a change that is refused, one that is taken, and none. -/
theorem witness_tileMove : st.ownsTile st.coreId st.slot.tag 63 = false ∧ stTile.ownsTile stTile.coreId stTile.slot.tag 63 = true ∧
    tteWin (stTile.tteValue stTile.coreId 63) = false ∧ tteSt (stTile.tteValue stTile.coreId 63) = 0 ∧
    tteFo (stTile.tteValue stTile.coreId 63) = false ∧
    (∃ x : Word, tteLen x ≠ tteLen (stTile.tteValue stTile.coreId 63) ∧ tteSt x = 0 ∧ tteOff x + tteLen x ≤ 0x60000
      ∧ tteLen x % 128 = 0 ∧ tteOff x % 128 = 0)
    ∧ (∃ x : Word, tteLen x ≠ tteLen (stTile.tteValue stTile.coreId 63) ∧ tteLen x % 128 ≠ 0)
    ∧ ∃ x : Word, tteLen x = tteLen (stTile.tteValue stTile.coreId 63) ∧ tteOff x = tteOff (stTile.tteValue stTile.coreId 63)
      ∧ tteSt x = tteSt (stTile.tteValue stTile.coreId 63) := by
  refine ⟨by decide +kernel, by decide +kernel, by decide +kernel, by decide +kernel, by decide +kernel, ⟨0x60000000000, ?_⟩, ⟨0x1000000, ?_⟩, ⟨0, ?_⟩⟩ <;> decide +kernel

/-- A window onto entry 62, which no command names, with ST EMPTY or READY; one that a command names. -/
def stState (x : Nat) : State := { stTile with core := { stTile.core with tte := stTile.core.tte.set 63 (setField (stTile.core.tte[63]) 62 2 x) } }

/-- R257: the moves of ST, one that is no such move, an entry that is a window, and one that a command names. -/
theorem witness_tileStates : (∀ p ∈ [((0 : Nat), (2 : Nat)), (2, 0)], ∃ x : Word, (stState p.1).ownsTile 0 1 63 = true ∧ tteWin ((stState p.1).tteValue 0 63) = false ∧
      tteFo ((stState p.1).tteValue 0 63) = false ∧ tteSt ((stState p.1).tteValue 0 63) = p.1 ∧ tteSt x = p.2 ∧
      tteLen x = tteLen ((stState p.1).tteValue 0 63) ∧ tteOff x = tteOff ((stState p.1).tteValue 0 63) ∧
      (stState p.1).tileNamed (0, 63) 0 = false)
    ∧ (∃ x : Word, tteSt x = 1 ∧ tteLen x = tteLen ((stState 0).tteValue 0 63) ∧ tteOff x = tteOff ((stState 0).tteValue 0 63))
    ∧ (∃ s : State, s.ownsTile 0 s.slot.tag 63 = true ∧ tteWin (s.tteValue 0 63) = true)
    ∧ ∃ s : State, s.ownsTile 0 s.slot.tag 63 = true ∧ tteWin (s.tteValue 0 63) = false ∧ s.tileNamed (0, 63) 0 = true := by
  refine ⟨?_, ⟨setField 0 62 2 1, by decide +kernel⟩, ⟨{ stTile with core := { stTile.core with
      tte := stTile.core.tte.set 63 (setBit (stTile.core.tte[63]) 60 true) } }, by decide +kernel⟩, ⟨{ stTile with core := { stTile.core with
      mx := { stTile.core.mx with queue := [{ from_ := { stTile.origin with id := 9 }, op := .zero 63 1 1, epoch := 0 }] } } }, by decide +kernel⟩⟩
  intro p h
  simp only [List.mem_cons, List.not_mem_nil, or_false] at h
  rcases h with rfl | rfl
  · exact ⟨setField 0 62 2 2, by decide +kernel⟩
  · exact ⟨0, by decide +kernel⟩

/-- evsnap at an address that is a multiple of 64, and at one that is not. -/
theorem witness_evsnap : (stW 0xFFFFFFFFF5FFC0 0).Issues (scalarChecks [.w 1] []) [.w 1] .drain (stW 0xFFFFFFFFF5FFC0 0) ∧
    (stW 0xFFFFFFFFF5FFC0 0).readS (.w 1) = .ok (0xFFFFFFFFF5FFC0, stW 0xFFFFFFFFF5FFC0 0) ∧ (0xFFFFFFFFF5FFC0 : Word).toNat % 64 = 0 ∧
    (∃ v, (stW 0xFFFFFFFFF5FFC0 0).storeVa 0xFFFFFFFFF5FFC0
      ((stW 0xFFFFFFFFF5FFC0 0).core.evc.toList.flatMap fun c => toBytes 4 c.toNat) none = .ok v) ∧ (0x20 : Word).toNat % 64 ≠ 0 :=
  ⟨issues (by rfl) rfl, rfl, by decide, exists_of_succeeds (by decide +kernel), by decide⟩

/-! ### The parallel layer and the host -/

/-- A kernel of 4 by 4 cores, with a handler, which no predecessor holds back. -/
def grid : Kernel :=
  { fetchKernel with record := [0, 0, BitVec.ofNat 64 (2 ^ 32 + 4 * 2 ^ 16 + 4), 0, 0, 0, 0, 0, 0, 0, 0, 0, 0, 0, 0, 0],
                     bands := [{ row0 := 0, height := 4, die := 0, x0 := 0, y0 := 0 }], handlers := [0, 0xFFFFFFFFF02000] }

/-- A context of that kernel, with w1 and w2. -/
def stG (x y : Word) : State := { stW x y with kernels := [(4097, grid)] }

/-- No operands but registers w1 and w2, at scope `die`. -/
def ext : Ext := { baseExt (.s (.w 3)) (.s (.w 1)) (.s (.w 2)) with scp := .die }

/-- The curtains, succgo, defh, gang and ungang, and predwait without and with a predecessor that has ended. -/
theorem witness_curtains : ∃ u, (stG 0 0).Issues {} [] .drain (stG 0 0) ∧ (stG 0 0).elementsPending = false ∧
    (stG 0 0).kernelAt (stG 0 0).slot.par.kid = some grid ∧ grid.kid = (stG 0 0).slot.par.kid ∧
    (stG 0 0).Issues (tensChecks [] (some ext.od)) (scalarsOf [ext.od]) .drain (stG 0 0) ∧ (stG 0 0).predOutcome = some 2 ∧
    ((stG 0 0).acquirePred ext.scp 2).writeS (opdOf ext.od) 2 = .ok u ∧ (stG 0 0).kernel = some grid ∧ grid.pred = none :=
  ⟨_, issues (by rfl) rfl, rfl, rfl, rfl, issues (by rfl) rfl, rfl, rfl, rfl, rfl⟩

/-- A kernel whose predecessor ended by tolerance. -/
def stPred : State :=
  { stG 0 0 with kernels := [(4097, { grid with pred := some 4098 }), (4098, { grid with kid := 4098, ended := some 1 })] }

theorem witness_predwait : ∃ k q, stPred.kernel = some k ∧ k.pred = some 4098 ∧ stPred.kernelAt 4098 = some q ∧ q.ended = some 1 :=
  ⟨_, _, rfl, rfl, rfl, rfl⟩

/-- A write of the predecessor's, by a context of another core, whose home is on the reader's core. -/
theorem witness_pred_write : ∃ r, r ∈ (State.acquirePred { stPred with
      hist := [{ seq := 0, by_ := .ctx 4098 600 0, addr := spKey 0 0x100, old := [some 0], alone := none, bar := none, seen := [], cores := [], bank := false }] }
      .die 1).hist ∧ r.by_.kid = 4098 ∧ homeInDomain r.addr stPred.self .die = true := by
  refine ⟨_, List.mem_cons_self, ?_, ?_⟩ <;> decide +kernel

/-- An arrival of one member at barrier 63, and the numbers that trap. -/
theorem witness_barArr : ∃ w, ext.imm.getLsbD 0 = false ∧
    (stG 63 1).Issues (specChecks [ext.oa, ext.ob] [ext.od]) (scalarsOf [ext.od, ext.oa, ext.ob]) .drain (stG 63 1) ∧
    (stG 63 1).twiceCheck (linksOf (scalarsOf [ext.oa, ext.ob])) = .ok () ∧ (stG 63 1).readS (opdOf ext.oa) = .ok (63, stG 63 1) ∧
    (stG 63 1).readS (opdOf ext.ob) = .ok (1, stG 63 1) ∧ (stG 63 1).slot.par.request = .none ∧ (63 : Word).toNat < 64 ∧ 1 ≤ (1 : Word).toNat ∧
    (1 : Word).toNat ≤ 2 ^ 24 ∧ ext.rel = false ∧ (stG 63 1).kernel = some grid ∧
    (grid.barrier 63).decide ((stG 63 1).arrival 63 1 none (ext.imm.getLsbD 1)) = .open_ ∧
    (stG 63 1).linksOk (linksOf (scalarsOf [ext.od])) = .ok () ∧
    (stG 63 1).writeS (opdOf ext.od) ((grid.barrier 63).done.setWidth 64) = .ok w ∧
    (64 : Word).toNat ≥ 64 ∧ (0 : Word).toNat = 0 ∧ (0x1000001 : Word).toNat > 2 ^ 24 :=
  ⟨_, rfl, issues (by rfl) rfl, rfl, rfl, rfl, rfl, by decide, by decide, by decide, rfl, rfl, by decide +kernel, rfl, rfl, by decide, rfl, by decide⟩

/-- A kernel whose barrier 0 has completed one generation, and has 5 pending. -/
def stBar (x y : Word) : State :=
  { stW x y with kernels := [(4097, { grid with barriers := [(0, { Barrier.fresh with done := 1, pending := 5 })] })] }

/-- bar.wait for the completed generation; bar.add down to 0, and below. -/
theorem witness_barWaitAndAdd : ∃ k w, (stBar 0 0).Issues (specChecks [ext.oa, ext.ob] [ext.od]) (scalarsOf [ext.od, ext.oa, ext.ob]) .drain (stBar 0 0) ∧
    (stBar 0 0).readS (opdOf ext.oa) = .ok (0, stBar 0 0) ∧ (stBar 0 0).readS (opdOf ext.ob) = .ok (0, stBar 0 0) ∧
    (stBar 0 0).kernel = some k ∧ ext.acq = false ∧ 1 ≤ ((k.barrier 0).done - (0 : Word).setWidth 32).toNat ∧
    ((k.barrier 0).done - (0 : Word).setWidth 32).toNat ≤ 2 ^ 31 ∧ ((stBar 0 0).passes (stBar 0 0).self 0 0).writeS (opdOf ext.od) 1 = .ok w ∧
    (stBar 0 (-5)).Issues (specChecks [ext.oa, ext.ob] []) (scalarsOf [ext.oa, ext.ob]) .drain (stBar 0 (-5)) ∧
    (stBar 0 (-5)).readS (opdOf ext.ob) = .ok (-5, stBar 0 (-5)) ∧ 0 ≤ ((k.barrier 0).pending : Int) + (-5 : Word).toInt ∧
    ((k.barrier 0).pending : Int) + (-5 : Word).toInt ≤ 2 ^ 56 - 1 ∧ ((k.barrier 0).pending : Int) + (-6 : Word).toInt < 0 :=
  ⟨_, _, issues (by rfl) rfl, rfl, rfl, rfl, rfl, by decide +kernel, by decide +kernel, rfl, issues (by rfl) rfl, rfl, by decide +kernel⟩

/-- The context owns entry 0, a READY tile of 128 bytes. -/
def stOwn (x y : Word) : State :=
  let s := stG x y
  { s with core := { s.core with tte := s.core.tte.set 0 (setField (setField (s.core.tte[0]) 62 2 2) 24 19 128), tteTag := s.core.tteTag.set 0 1 } }

/-- own.give of it to the own core and to the core beside it. -/
theorem witness_ownGive : ∀ c ∈ [0, 1], tileOf (ext.oa) = none ∧ tileOf (.t 0) = some 0 ∧
    (stOwn c 63).readS (.w 2) = .ok (63, stOwn c 63) ∧ ((stOwn c 63).kernel.bind fun k => k.coreOf c.toNat) = some c.toNat ∧ (63 : Word).toNat < 64 ∧
    (stOwn c 63).ownsTile (stOwn c 63).coreId (stOwn c 63).slot.tag 0 = true ∧ clusterId c.toNat = clusterId (stOwn c 63).coreId ∧
    tteSt ((stOwn c 63).homeEntry (stOwn c 63).coreId 0) = 2 ∧ (stOwn c 63).tileNamed ((stOwn c 63).tteHome (stOwn c 63).coreId 0) 0 = false ∧
    (c.toNat ≠ 0 → (stOwn c 63).canTake ((stOwn c 63).tteHome (stOwn c 63).coreId 0) c.toNat 63 = true) := by
  intro c hc
  simp only [List.mem_cons, List.not_mem_nil, or_false] at hc
  rcases hc with rfl | rfl <;>
    exact ⟨rfl, rfl, rfl, by decide +kernel⟩

/-- The link claim: free, held by the slot, and held by another. -/
theorem witness_links : ∃ u v, st.Issues (scalarChecks [] [.w 3]) [.w 3] .drain st ∧ st.core.claim = none ∧
    State.writeS { st with core := { st.core with claim := some st.slotId } } (.w 3) 1 = .ok u ∧
    st.Issues (scalarChecks [] [.w 3]) [.w 3] .free st ∧ st.writeS (.w 3) st.linkState = .ok v ∧
    st.linksOk (linksOf [.w 3]) = .ok () ∧ st.Issues (scalarChecks [] [.link .n]) [.link .n] .drain st ∧ st.linkNeighbour .n = none ∧
    (stG 0 0).Issues (scalarChecks [] [.link .s]) [.link .s] .drain (stG 0 0) ∧ (stG 0 0).linkNeighbour .s ≠ none ∧
    (stG 0 0).core.claim ≠ some (stG 0 0).slotId ∧
    (∃ (s : State) (r : State), s.Issues (scalarChecks [] [.w 3]) [.w 3] .drain s ∧ s.core.claim = some 1 ∧ 1 ≠ s.slotId ∧ s.writeS (.w 3) 0 = .ok r) :=
  ⟨_, _, issues (by rfl) rfl, rfl, rfl, issues (by rfl) rfl, rfl, rfl, issues (by rfl) rfl, by decide +kernel, issues (by rfl) rfl,
    by decide +kernel, by decide, ⟨{ st with core := { st.core with claim := some 1 } }, _, issues (by rfl) rfl, rfl, by decide, rfl⟩⟩

/-- send of one word to the last core of the grid; an index that is past it; gainadd to the owner of an address. -/
theorem witness_sends : (stG 15 0x100).Issues (specChecks ([ext.oa, ext.ob] ++ [ext.oc]) []) (scalarsOf ([ext.oa, ext.ob] ++ [ext.oc])) .drain (stG 15 0x100) ∧
    (stG 15 0x100).twiceCheck (linksOf (scalarsOf ([ext.oa, ext.ob] ++ [ext.oc]))) = .ok () ∧
    (stG 15 0x100).readS (opdOf ext.oa) = .ok (15, stG 15 0x100) ∧ (stG 15 0x100).readS (opdOf ext.ob) = .ok (0x100, stG 15 0x100) ∧
    (stG 15 0x100).readS (opdOf ext.oc) = .ok (0, stG 15 0x100) ∧ (stG 15 0x100).targetIndex 15 = .ok 75 ∧
    (stG 15 0x100).targetOwner 0xF00 = .ok 75 ∧ (0 : Word).toNat % 8 = 0 ∧ (stG 15 0x100).hasRoomAt 75 = true ∧ ext.rel = false ∧
    (stG 15 0x100).kernel = some grid ∧ (16 : Word).toNat ≥ grid.rows * grid.cols ∧ ((stG 15 0x100).kernel.bind fun k => k.dflt) = none :=
  ⟨issues (by rfl) rfl, rfl, rfl, rfl, rfl, rfl, rfl, rfl, by decide +kernel, rfl, rfl, by decide +kernel, rfl⟩

/-- The words of a payload and of an argument block in the window. -/
theorem witness_payload : ∃ ws y, st.loadWords 0xFFFFFFFFF5FFE0 4 = .ok (ws, y) := exists_of_succeeds₂ (by decide +kernel)

/-- resadd of a register, and of a vector. -/
theorem witness_resadd : ∃ v, (stG 0x3F800000 0).Issues { operand := !srcSpec ext.oa, queue := specQueue ext.oa } (scalarsOf [ext.oa]) .drain (stG 0x3F800000 0) ∧
    ext.oa.isVector = false ∧ ext.me = false ∧ (stG 0x3F800000 0).readS (opdOf ext.oa) = .ok (0x3F800000, stG 0x3F800000 0) ∧
    aen (stG 0x3F800000 0).slot.status = 0 ∧ (Spec.v (.v 1)).isVector = true ∧
    (stG 0 0).Issues { operand := !vsrcSpec (.v (.v 1)), queue := specQueue (.v (.v 1)) } (scalarsOf [.v (.v 1)]) .drain (stG 0 0) ∧
    (stG 0 0).readV (.v (.v 1)) 32 = .ok (v, stG 0 0) :=
  ⟨_, issues (by rfl) rfl, rfl, rfl, rfl, rfl, rfl, issues (by rfl) rfl, rfl⟩

/-- A spawn that has its answer. -/
def stAnswered : State := { stG 0 0 with slot := { (stG 0 0).slot with par := { (stG 0 0).slot.par with request := .spawn (some true) } } }

/-- spawn, before and after. -/
theorem witness_spawn : ∃ y, (stG 0 0).Issues (specChecks [ext.oa, ext.ob, ext.oc] [ext.od]) (scalarsOf [ext.od, ext.oa, ext.ob, ext.oc]) .drain (stG 0 0) ∧
    (stG 0 0).twiceCheck (linksOf (scalarsOf [ext.oa, ext.ob, ext.oc])) = .ok () ∧ (stG 0 0).readS (opdOf ext.oa) = .ok (0, stG 0 0) ∧
    (stG 0 0).readS (opdOf ext.ob) = .ok (0, stG 0 0) ∧ (stG 0 0).readS (opdOf ext.oc) = .ok (0, stG 0 0) ∧ (stG 0 0).slot.par.request = .none ∧
    (stG 0 0).targetIndex 0 = .ok 0 ∧ (0 : Word).toNat % 4 = 0 ∧ (0 : Word).toNat % 8 = 0 ∧
    stAnswered.Issues (specChecks [ext.oa, ext.ob, ext.oc] [ext.od]) (scalarsOf [ext.od, ext.oa, ext.ob, ext.oc]) .drain stAnswered ∧
    stAnswered.slot.par.request = .spawn (some true) ∧ stAnswered.writeS (opdOf ext.od) 1 = .ok y ∧
    (stG 0 0).linksOk (linksOf (scalarsOf [ext.od, ext.oa, ext.ob, ext.oc])) = .ok () ∧
    ∃ k, (stG 0 0).linksOk (linksOf (scalarsOf [.s (.link .n), ext.oa, ext.ob, ext.oc])) = .error (.trap k) :=
  ⟨_, issues (by rfl) rfl, rfl, rfl, rfl, rfl, rfl, rfl, rfl, rfl, issues (by rfl) rfl, rfl, rfl, rfl, _, rfl⟩

/-- A key map of the whole grid, one bin in each core's scratchpad at offset 8. -/
theorem witness_keyMap : ∃ m, keyMapOf grid [BitVec.ofNat 64 (4 * 2 ^ 48 + 4 * 2 ^ 32), 8, 1, 0] = some m ∧ m.route grid 15 = some (75, 0) ∧
    (stG 0 0).Issues (specChecks [ext.oa] []) (scalarsOf [ext.oa]) .drain (stG 0 0) ∧
    (stG 0 0).Issues (specChecks [ext.oa, ext.ob] []) (scalarsOf [ext.oa, ext.ob]) .drain (stG 0 0) ∧ ext.imm.getLsbD 4 = false ∧ (0 : Word).toNat % 32 = 0 :=
  ⟨_, rfl, rfl, issues (by rfl) rfl, issues (by rfl) rfl, rfl, rfl⟩

/-- gang in a 4 by 4 grid, shape by shape, and in one of a single core. -/
theorem witness_gang : ∃ b, (stG 0 0).band = some b ∧ (gangBlock 0 0).all (bandHolds b grid.cols) = true ∧
    (stG 0 0).gangOf 0 0 = none ∧ (stG 0 0).gangClash 0 = false ∧ (stG 0 0).gangWaits 0 = false ∧ ((gangBlock 0 0).filterMap ((stG 0 0).gangMember 0)).length ≠ (gangBlock 0 0).length ∧
    (∃ c, st.band = some c ∧ (gangBlock 0 0).all (bandHolds c fetchKernel.cols) = false) :=
  ⟨_, rfl, by decide +kernel, rfl, by decide +kernel, by decide +kernel, by decide +kernel, _, rfl, by decide +kernel⟩

/-- A core beside it waits in `gang` for the same shape. -/
def stGang : State :=
  let y : Slot := { Slot.reset with st := .waiting, par := { SlotPar.reset with kid := 4097, gangWish := some 0 } }
  { stG 0 0 with cores := [(1, { Core.reset 1 with slots := [(0, y)] })] }

theorem witness_gang_forms : ((gangBlock 0 0).filterMap (stGang.gangMember 0)).length = (gangBlock 0 0).length := by decide +kernel

/-- A context that waits with the shape, and one that meets another shape in its block. -/
theorem witness_gang_waits : State.gangWaits { stG 0 0 with slot := { (stG 0 0).slot with st := .waiting, par := { (stG 0 0).slot.par with gangWish := some 0 } } } 0 = true ∧
    stGang.gangWaits 1 = false ∧ stGang.gangClash 1 = true := by decide +kernel

/-- myid, and the tree's instructions. -/
theorem witness_tree : ∃ u w, (stG 63 1).Issues (specChecks [] [ext.od]) (scalarsOf [ext.od]) .free (stG 63 1) ∧
    (stG 63 1).writeS (opdOf ext.od) ((stG 63 1).identity 0) = .ok u ∧
    (stG 63 1).Issues (specChecks [ext.oa, ext.ob] []) (scalarsOf [ext.oa, ext.ob]) .drain (stG 63 1) ∧ (63 : Word).toNat < 64 ∧
    (stG 63 1).slot.contribution 63 = none ∧ (stG 63 1).Issues (specChecks [ext.oa] [ext.od]) (scalarsOf [ext.od, ext.oa]) .free (stG 63 1) ∧
    (stG 63 1).writeS (opdOf ext.od) (grid.barrier 63).last = .ok w ∧ (0 : BitVec 32).toNat % 4 = 0 ∧ (1 : BitVec 32).toNat % 4 = 1 :=
  ⟨_, _, issues (by rfl) rfl, rfl, issues (by rfl) rfl, by decide, rfl, issues (by rfl) rfl, rfl, rfl, rfl⟩

/-- The time base at 5. -/
def stTime (x y : Word) : State := { stG x y with timeBase := 5 }

/-- rdtime; alarm: a handler that is zero, one that is not, no deadline, one that is here, and one that is to come. -/
theorem witness_alarm : ∃ u, (stTime 6 0x4000000).Issues (scalarChecks [] [.w 3]) [.w 3] .free (stTime 6 0x4000000) ∧
    (stTime 6 0x4000000).writeS (.w 3) (BitVec.ofNat 64 (stTime 6 0x4000000).timeBase) = .ok u ∧
    (stTime 6 0x4000000).Issues (scalarChecks [.w 1, .w 2] []) [.w 1, .w 2] .drain (stTime 6 0x4000000) ∧
    (stTime 6 0x4000000).twiceCheck (linksOf [.w 1, .w 2]) = .ok () ∧ (stTime 6 0x4000000).readS (.w 1) = .ok (6, stTime 6 0x4000000) ∧
    (stTime 6 0x4000000).timeBase < (6 : Word).toNat ∧ (5 : Word).toNat ≤ (stTime 6 0x4000000).timeBase ∧
    (∃ h : Word, h ≠ 0 ∧ (stTime 6 0).handler (hdrHid h) = 0) ∧ ∃ h : Word, (stTime 6 0).handler (hdrHid h) ≠ 0 :=
  ⟨_, issues (by rfl) rfl, rfl, issues (by rfl) rfl, rfl, rfl, by decide, by decide, ⟨1, by decide +kernel⟩, ⟨0x04000000, by decide +kernel⟩⟩

/-- IRQWIN grants the identities 2046 and 2047. -/
def stIrq (x y : Word) : State := let s := stW x y; { s with core := { s.core with irqwin := 0x000207FE } }

/-- sig.irq of the last identity at the last hart, of one below, and at a hart that is not. -/
theorem witness_sigIrq : (stIrq 2047 7).Issues (scalarChecks [.w 1, .w 2] []) [.w 1, .w 2] .drain (stIrq 2047 7) ∧
    (stIrq 2047 7).twiceCheck (linksOf [.w 1, .w 2]) = .ok () ∧ (7 : Word).toNat < 8 ∧ field (stIrq 2047 7).core.irqwin 0 11 ≤ (2047 : Word).toNat ∧
    (2047 : Word).toNat < field (stIrq 2047 7).core.irqwin 0 11 + field (stIrq 2047 7).core.irqwin 16 11 ∧
    (stIrq 2047 7).toControl = .ok () ∧ (∃ w, (stIrq 2047 7).releaseHalf .sys = .ok w) ∧ (8 : Word).toNat ≥ 8 ∧ (2045 : Word).toNat < field (stIrq 2047 7).core.irqwin 0 11 :=
  ⟨issues (by rfl) rfl, rfl, by decide, by decide +kernel, by decide +kernel, by rfl, ⟨_, rfl⟩, by decide +kernel⟩

/-- A system call that is posted, and one whose reply is here. -/
def stSys (r : Option Word) : State := { stW 64 63 with slot := { (stW 64 63).slot with par := { (stW 64 63).slot.par with request := .sys 9 r } } }

/-- sys, in each of its states. -/
theorem witness_sys : ∃ v, (stW 64 63).Issues (scalarChecks [.w 1] [.w 3]) [.w 3, .w 1] .drain (stW 64 63) ∧ (stW 64 63).slot.par.request = .none ∧
    (stW 64 63).readS (.w 1) = .ok (64, stW 64 63) ∧ (64 : Word).toNat % 64 = 0 ∧ (63 : Word).toNat % 64 ≠ 0 ∧
    ((stW 64 63).ctlAt (pkgOf (stW 64 63).coreId)).sysqOn = false ∧
    (stSys none).Issues (scalarChecks [.w 1] [.w 3]) [.w 3, .w 1] .drain (stSys none) ∧ (stSys none).slot.par.request = .sys 9 none ∧
    (stSys (some 1)).Issues (scalarChecks [.w 1] [.w 3]) [.w 3, .w 1] .drain (stSys (some 1)) ∧ (stSys (some 1)).slot.par.request = .sys 9 (some 1) ∧
    ((stSys (some 1)).acquireHalf .sys).writeS (.w 3) 1 = .ok v :=
  ⟨_, issues (by rfl) rfl, rfl, rfl, rfl, by decide, rfl, issues (by rfl) rfl, rfl, issues (by rfl) rfl, rfl, rfl⟩

/-- A queue that takes a system call's entry, at 0x10000; the request words in the window. -/
def stSysOn : State := let s := stW 0xFFFFFFFFF01000 63; { s with ctls := [(0, { Ctl.reset with sysq := 0x10009 })] }

theorem witness_sys_posts : (stSysOn.ctlAt (pkgOf stSysOn.coreId)).sysqOn = true ∧ (0xFFFFFFFFF01000 : Word).toNat % 64 = 0 ∧
    stSysOn.readS (.w 1) = .ok (0xFFFFFFFFF01000, stSysOn) ∧ stSysOn.linksOk (linksOf [.w 3, .w 1]) = .ok () ∧ Memory.wf stSysOn.mem = true ∧
    ∃ ws w, (do
      let (ws, v) ← stSysOn.loadWords 0xFFFFFFFFF01000 8
      let w ← State.releaseHalf v .sys
      let y := w.unread stSysOn
      let c := w.ctlAt (pkgOf w.coreId)
      let key := w.sysSlot c
      if c.sysqReady && !y.homeQueues key (y.asRequest false) && (do y.sysRoutes key; y.waits.checkWrite y.waits.self key 128) matches .ok _
      then .ok (ws, w) else blockOn .other) = (Except.ok (ws, w) : Act (List Word × State)) :=
  ⟨by decide, by decide, rfl, rfl, by decide +kernel, exists_of_succeeds₂ (by decide +kernel)⟩

/-- pfetch of a page, which the core's tables, at 0x100000, translate; and of the first address of the window. -/
def stMapped : State :=
  let s := stW 0x2000 0
  { s with
    core := { s.core with aspace := 0x100001 }
    mem := [(0x100000, 0x101001), (0x101000, 0x102001), (0x102000, 0x103001), (0x103000, 0x20003B)].foldl (fun m p => Memory.setBytes m p.1 (toBytes 8 p.2)) s.mem }

theorem witness_prefetch_page : stMapped.Issues (scalarChecks [.w 1] []) [.w 1] .free stMapped ∧ stMapped.readS (.w 1) = .ok (0x2000, stMapped) ∧
    (match stMapped.prefetched 0x2000 with | .ok (some (l, _)) => l.frame / 2 ^ 49 % 2 == 0 | _ => false) = true :=
  ⟨issues (by rfl) rfl, rfl, by decide +kernel⟩

theorem witness_prefetch : (stW 0xFFFFFFFFF00000 0).Issues (scalarChecks [.w 1] []) [.w 1] .free (stW 0xFFFFFFFFF00000 0) ∧
    (stW 0xFFFFFFFFF00000 0).readS (.w 1) = .ok (0xFFFFFFFFF00000, stW 0xFFFFFFFFF00000 0) ∧ (0xFFFFFFFFF00000 : Word).toNat ≥ 0xFFFFFFFFF00000 :=
  ⟨issues (by rfl) rfl, rfl, by decide⟩

/-! ### Vector instructions -/

/-- vadd.f32 v1, v2, v3. -/
def vadd : Ext := baseExt (.v (.v 1)) (.v (.v 2)) (.v (.v 3))

/-- vld v1, at w1. -/
def vload : Ext := baseExt (.v (.v 1)) (.s (.w 1)) Spec.zero

/-- A vector instruction that passes its checks and runs, and one that traps; nothing else is in the sequencer. -/
theorem witness_vector : ∃ e t, st.decodeTrap (vectorChecks (.add .f32) vadd true st.pendingCue) = .ok () ∧
    st.hazard (offloadReads (.add .f32) vadd st.pendingCue) = false ∧ st.bodyWaits vadd = false ∧
    st.linkWaits (offloadReads (.add .f32) vadd st.pendingCue) = false ∧ st.slot.seq.entries.length < 16 ∧
    st.readEntry (.add .f32) vadd none = .ok (e, t) ∧ (State.slot t).seq = { items := [], opened := none } ∧ State.lag t = false :=
  ⟨_, _, rfl, rfl, rfl, rfl, by decide, rfl, rfl, rfl⟩

/-- The instance of that entry, which runs. -/
theorem witness_vector_runs : ∃ u evs, (do
    let (e, t) ← st.readEntry (.add .f32) vadd none
    runInstance e (State.completed { t with slot := ({ t.slot.takeCue with seq := t.slot.takeCue.seq.push e } : Slot).advance 4 }))
    = (.ok (u, evs) : Act (State × List Ev)) := exists_of_succeeds₂ (by decide +kernel)

/-- A load of a register of 128 bytes at an address that is not a multiple of 128, which traps. -/
theorem witness_vector_traps : ∃ k, (do
    let (e, t) ← (stW 64 0).readEntry .ld vload none
    runInstance e (State.completed { t with slot := ({ t.slot.takeCue with seq := t.slot.takeCue.seq.push e } : Slot).advance 4 }))
    = (.error (.trap k) : Act (State × List Ev)) := exists_of_traps (by decide +kernel)

/-- An entry of an operation on v1, v2 and v3 that masks the odd lanes out. -/
def entry (op : VOp) (x : Ext) : Entry where
  op := op
  x := x
  words := []
  addr := 0
  cue := none
  rm := .rne
  fz := false
  sa := 0xFFFFFFFFF5FF80
  sb := 0
  sc := 0
  mask := 0x55555555555555555555555555555555
  at_ := st.slot.here

/-- Entries of the kinds that the statements on lanes are about. -/
theorem witness_lanes : (entry (.iadd .b) vadd).x.od = .v (.v 1) ∧ (entry (.iadd .b) vadd).x.oa = .v (.v 2) ∧ (entry (.iadd .b) vadd).x.ob = .v (.v 3) ∧
    (entry (.ifsl .d) vadd).x.oc = Spec.zero ∧ (entry (.lt .bf16) { vadd with od := .s (.w 22) }).x.od = .s (.w 22) ∧ (22 : Fin 24) ≠ 0 ∧
    (23 : Fin 24).val = (22 : Fin 24).val + 1 ∧ (entry (.ext .h) { vadd with od := .s (.w 1) }).op = .ext .h ∧
    (entry (.bcst .w) vadd).op = .bcst .w :=
  ⟨rfl, rfl, rfl, rfl, rfl, by decide, rfl, rfl, rfl⟩

/-- vld and vst of the last 128 bytes of the scratchpad, and of an address that traps. -/
theorem witness_blocks : st.coreId < 18432 ∧ (entry .st vload).x.oa = .s (.w 1) ∧ (entry .st vload).x.od = .v (.v 1) ∧
    (0xFFFFFFFFF5FF80 : Word) = (entry .st vload).sa + (entry .st vload).x.imm.signExtend 64 ∧
    (0xFFFFFFFFF5FF80 : Word) = BitVec.ofNat 64 (0xFFFFFFFFF00000 + 0x5FF80) ∧ 0x5FF80 % 128 = 0 ∧ 0x5FF80 + 128 ≤ 0x60000 ∧ st.flips = [] ∧
    st.inImage st.coreId 0x5FF80 128 = false ∧ Memory.wf st.mem = true ∧ st.hist = [] ∧ (0xFFFFFFFFF5FF90 : Word).toNat % 128 ≠ 0 :=
  ⟨by decide, rfl, rfl, by decide, by decide, rfl, by decide, rfl, by decide +kernel, by decide +kernel, rfl, by decide⟩

/-! ### Tensors -/

/-- A tensor of two dimensions that every operation may name. -/
def tensor (h : Word) (d0 d1 : Nat) : Tensor where
  handle := h
  serial := h.toNat
  asid := 0
  creator := 0
  scope := .sys
  rank := 1
  fmt := .fp32
  d0 := d0
  d1 := d1
  d2 := 1
  d3 := 1
  rep := 0xFFFF
  pending := 0
  askers := []
  reform := false
  want := none
  form := 0
  st := .ready

/-- Four tensors, and registers that name them: w1 and w2 the sources, w3 the destination. -/
def stT (a b d : Word) : State :=
  let s := stW a b
  { s with tensors := [tensor 1 2 3, tensor 2 2 3, tensor 3 3 2, tensor 4 3 1], slot := { s.slot with w := s.slot.w.set 3 d } }

/-- The shape of a tensor instruction: OA and OB as sources, OD a register. -/
theorem witness_tens : (stT 1 2 1).Issues (tensChecks [ext.oa, ext.ob] (some ext.od)) (scalarsOf ([ext.oa, ext.ob] ++ (some ext.od).toList)) .drain (stT 1 2 1) ∧
    (stT 1 2 1).twiceCheck (linksOf (scalarsOf [ext.oa, ext.ob])) = .ok () ∧ (stT 1 2 1).readS (opdOf ext.oa) = .ok (1, stT 1 2 1) ∧
    (stT 1 2 1).readS (opdOf ext.ob) = .ok (2, stT 1 2 1) ∧ (stT 1 2 1).readS (opdOf ext.oc) = .ok (0, stT 1 2 1) :=
  ⟨issues (by rfl) rfl, rfl, rfl, rfl, rfl⟩

/-- Handles of every shape that the arithmetic and the rearranging ask for. -/
theorem witness_tensorShapes : (∃ n : Fin 24, ext.od = .s (.w n) ∧ (1 : Word) = wGet (stT 1 2 1).slot.w n) ∧ (stT 1 2 1).named 1 = .ok (tensor 1 2 3) ∧ (stT 1 2 1).named 2 = .ok (tensor 2 2 3) ∧
    (stT 1 2 3).named 3 = .ok (tensor 3 3 2) ∧ (stT 1 2 4).named 4 = .ok (tensor 4 3 1) ∧ (tensor 1 2 3).dims = (tensor 2 2 3).dims ∧
    (tensor 3 3 2).dims = ((tensor 1 2 3).d1, (tensor 1 2 3).d0, (tensor 1 2 3).d2, (tensor 1 2 3).d3) ∧
    (tensor 4 3 1).dims = ((tensor 1 2 3).d1, (tensor 1 2 3).d2, (tensor 1 2 3).d3, 1) ∧ (tensor 1 2 3).rep.getLsbD 9 = true :=
  ⟨⟨3, rfl, rfl⟩, rfl, rfl, rfl, rfl, rfl, rfl, rfl, rfl⟩

/-- A descriptor of two dimensions, good for tnew; elements at the corner; codes that fit, and twiden's bits. -/
theorem witness_tensorOperands : ext.scp ≠ .core ∧
    descriptorOk [0x19FFFF, BitVec.ofNat 64 (3 * 2 ^ 32 + 2), BitVec.ofNat 64 (2 ^ 32 + 1), 0, 0, 0, 0, 0] = true ∧
    (tensor 1 2 3).index (BitVec.ofNat 64 (2 * 2 ^ 32 + 1)) 0 = some 5 ∧ (0xFFFFFFFF : Word).toNat < 2 ^ elemWidth (tensor 1 2 3).fmt ∧
    (0xFFFF : Word).toNat < 2 ^ 16 ∧ repOk (tensor 1 2 3).fmt ((tensor 1 2 3).rep ||| 0xFFFF) = true :=
  by decide +kernel

/-- tsync of nothing, and of one handle. -/
theorem witness_tsync : Spec.zero = Spec.zero ∧ (stT 1 0 0).tensorsPending none = false ∧ (stT 1 0 0).tensorsPending (some 1) = false ∧
    ext.oa ≠ Spec.zero ∧ (stT 1 0 0).Issues (tensChecks [ext.oa] none) (scalarsOf [ext.oa]) .drain (stT 1 0 0) :=
  ⟨rfl, rfl, rfl, by decide, issues (by rfl) rfl⟩

/-- tconv, without a cue and with one. -/
theorem witness_tconv : convCueBad none = false ∧ convCueBad (some 0x008000) = false ∧
    (stT 1 0 2).Issues { tensChecks [ext.oa] (some ext.od) with formats := true } (scalarsOf [ext.oa, ext.od]) .drain (stT 1 0 2) ∧
    ∃ n : Fin 24, ext.od = .s (.w n) ∧ (2 : Word) = wGet (stT 1 0 2).slot.w n :=
  ⟨rfl, by decide, issues (by rfl) rfl, ⟨3, rfl, rfl⟩⟩

/-- Accepted operations on the tensor 1: a write of its last element, and a fill. -/
def stOps (w : TWork) : State := (stT 1 0 0).accept 1 0 w

theorem witness_tops : ∀ w ∈ [TWork.set 5 7, .fill 7], ∃ o, (stOps w).tops[0]? = some o ∧ o.ready ((stOps w).tops.take 0) = true ∧ o.work = w ∧
    (stOps w).tensors.find? (·.handle == o.dst) = some (tensor 1 2 3) ∧
    (stOps w).tensors.find? (·.handle == (if o.src = 0 then o.dst else o.src)) = some (tensor 1 2 3) ∧
    (match (stOps w).perform o (tensor 1 2 3) (tensor 1 2 3) false with | .ok _ => true | .error _ => false) = true ∧
    succeeds ((stOps w).homesReach o (tensor 1 2 3) (tensor 1 2 3)) = true ∧
    succeeds ((stOps w).scanFor o (tensor 1 2 3) (tensor 1 2 3)) = true ∧
    (stOps w).elementsPending = true ∧ Memory.wf (stOps w).mem = true ∧ (7 : Nat) < 2 ^ 32 := by
  intro w hw
  simp only [List.mem_cons, List.not_mem_nil, or_false] at hw
  rcases hw with rfl | rfl <;> exact ⟨_, rfl, by decide +kernel⟩

/-- The element that tset writes shares its unit with an uncorrectable error. -/
theorem witness_top_error : ∃ o, (stOps (.set 5 7)).tops[0]? = some o ∧
    succeeds (State.homesReach { stOps (.set 5 7) with
      flips := [{ array := { pkg := 0, kind := 5, inst := 0 }, word := (tensor 1 2 3).key 5 / 8, fatal := true }] } o (tensor 1 2 3) (tensor 1 2 3)) = true ∧
    ∃ k, State.scanFor { stOps (.set 5 7) with
      flips := [{ array := { pkg := 0, kind := 5, inst := 0 }, word := (tensor 1 2 3).key 5 / 8, fatal := true }] } o (tensor 1 2 3) (tensor 1 2 3)
        = .error (.trap k) :=
  ⟨_, rfl, by decide +kernel, exists_of_traps (by decide +kernel)⟩

/-- The element read by tget, with protection. -/
theorem witness_tget : (stT 1 0 0).tensorScan (stT 1 0 0).self (tensor 1 2 3) [5] (fun _ => (tensor 1 2 3).d0 == 1 || (tensor 1 2 3).d1 == 1) = .ok (stT 1 0 0) := by
  unfold State.tensorScan
  rfl

/-- A layout of 2 by 3 elements of FP32 in the window, at 0x1000 of core 0's scratchpad, and the record at 0x4000. -/
def stLayout : State :=
  let r : List Word := [0xFFFFFFFFF01000, 9, BitVec.ofNat 64 (3 * 2 ^ 32 + 2), BitVec.ofNat 64 (2 ^ 32 + 1), 4, 8, 0, 0]
  poked (r.zipIdx.map fun p => (0x4000 + 8 * p.2, p.1)) (stT 1 0xFFFFFFFFF04000 0)

/-- tcopyin and tcopyout through it. -/
theorem witness_tcopy : ∃ l u, stLayout.readLayout 0xFFFFFFFFF04000 = .ok (l, u) := exists_of_succeeds₂ (by decide +kernel)

/-- Whether the record read fits the tensor 1, and all its elements resolve. -/
theorem witness_tcopy_fits : (match stLayout.readLayout 0xFFFFFFFFF04000 with
    | .ok (l, u) => l.fmt == .fp32 && (l.e0, l.e1, l.e2, l.e3) == (tensor 1 2 3).dims && succeeds (u.resolveWalk (elemBytes l.fmt) .load l.walk)
      && succeeds (u.resolveWalk (elemBytes l.fmt) .store l.walk)
    | .error _ => false) = true := by decide +kernel

/-! ### The matrix unit, the copy engine and the bank transforms -/

/-- A context that holds the matrix unit's claim and owns two READY tiles of 12,288 bytes, the first bound as an accumulator
of one row; its cue names BF16 for A and B. -/
def stMx : State :=
  let s := stG 16 0
  let e := setField (setField (setField (s.core.tte[0]) 62 2 2) 24 19 12288) 0 19 0x8000
  { s with
    slot := { s.slot with status := 0x4000, cue := 0x000077 }
    core := { s.core with
      tte := ((s.core.tte.set 0 e).set 1 (setField (setField (setField (s.core.tte[1]) 62 2 2) 24 19 12288) 0 19 0xB000))
      tteTag := ((s.core.tteTag.set 0 1).set 1 1)
      mx := { s.core.mx with claim := some 1, acc := some (0, 1, 48), lastCue := some 0x000077 } } }

/-- Operands of mxb and mxa: tile 1, no scales. -/
def onTile (imm : BitVec 32) : Ext := { baseExt Spec.zero (.t 1) Spec.zero with imm := imm }

/-- mxr: a configuration that asks for nothing, one with a bit past 4, and one without a neighbour. -/
theorem witness_mxr : ∃ v, (stG 15 0).Issues (specChecks [ext.oa] [ext.od]) (scalarsOf [ext.od, ext.oa]) .drain (stG 15 0) ∧
    (stG 15 0).readS (opdOf ext.oa) = .ok (15, stG 15 0) ∧ (32 : Word).toNat ≥ 32 ∧ (15 : Word).toNat < 32 ∧ (stG 15 0).offRectangle 15 = true ∧
    (stG 15 0).offRectangle 10 = false ∧ (stG 15 0).core.mx.claim = none ∧ (10 : Word).getLsbD 4 = false ∧
    State.writeS { stG 15 0 with core := { (stG 15 0).core with mx := (stG 15 0).core.mx.configured (stG 15 0).slot.par.ident 10 } } (opdOf ext.od) 1
      = .ok v :=
  ⟨_, issues (by rfl) rfl, rfl, by decide, by decide, by decide +kernel, by decide +kernel, rfl, rfl, rfl⟩

/-- mxr where another context holds the claim. -/
theorem witness_mxr_held : ∃ i v, stMx.core.mx.claim = some i ∧ i ≠ 2 ∧ stMx.writeS (opdOf ext.od) 0 = .ok v := ⟨_, _, rfl, by decide, rfl⟩

/-- mxz of the smallest accumulator, and of a wide one. -/
theorem witness_mxz : ∃ v, stMx.core.mx.claim = some stMx.slot.par.ident ∧ (BitVec.ofNat 64 (1 + 96 * 2 ^ 16)).toNat = 1 + 96 * 2 ^ 16 ∧
    tileOf (.t 0) = some 0 ∧ succeeds (stMx.tileArmed 0) = true ∧ 4 * 1 * 96 ≤ stMx.tileLen (stMx.tteHome stMx.coreId 0) ∧
    stMx.mxPush (.zero 0 1 96) = .ok v :=
  ⟨_, rfl, by decide, rfl, by decide +kernel, by decide +kernel, rfl⟩

/-- A core whose matrix queue holds one command. -/
def stMxq (op : MxOp) : State :=
  let q : MxCmd := { from_ := { stMx.origin with id := 9 }, op := op, epoch := 0 }
  let b : Chunk := { cue := 0x000077, codes := List.replicate 48 (some 0), scales := [], ts := 0, n := 48, k := 1, bad := [] }
  { stMx with core := { stMx.core with mx := { stMx.core.mx with queue := [q], chunk := some b, chunkEpoch := 0 } } }

/-- mxb and mxa issue with this cue. -/
theorem witness_mxIssues : mxCueOk 0x000077 = true ∧ stMx.pendingCue = some 0x000077 ∧
    stMx.Issues (stMx.mxChecks (onTile 0x4030) 0) (scalarsOf [(onTile 0x4030).od, (onTile 0x4030).oa, (onTile 0x4030).ob, (onTile 0x4030).oc]) .drain stMx ∧
    stMx.readS (opdOf (onTile 0x4030).od) = .ok (0, stMx) := ⟨by decide +kernel, rfl, issues (by rfl) rfl, rfl⟩

/-- mxb of 48 columns and 64 indices, and mxa of as many. -/
theorem witness_mxb : cueBlock 0x000077 = 0 ∧ cueTsf 0x000077 = 0 ∧
    tileOf (onTile 0x4030).oa = some 1 ∧ (onTile 0x4030).ob = Spec.zero ∧ (onTile 0x4030).oc = Spec.zero ∧ srcSpec (onTile 0x4030).od = true ∧
    (onTile 0x4030).imm.toNat = 48 + 256 * 64 ∧ 48 ≤ chunkN (cueBf 0x000077) ∧
    64 ≤ chunkK (cueBf 0x000077) ∧ stMx.core.mx.cfg.getLsbD 0 = false ∧ succeeds (stMx.tileArmed 1) = true ∧
    64 * chunkN (cueBf 0x000077) * elemStorage (cueBf 0x000077) / 8 ≤ stMx.tileLen (stMx.tteHome stMx.coreId 1) ∧
    (onTile 0x4000).imm.toNat = 256 * 64 ∧ (stMxq (.zero 0 1 1)).currentCue.isSome = true ∧ stMx.currentCue = none ∧
    succeeds stMx.accumulator = true ∧ stMx.core.mx.cfg.getLsbD 2 = false ∧
    1 * chunkK (cueAf 0x000077) * elemStorage (cueAf 0x000077) / 8 ≤ stMx.tileLen (stMx.tteHome stMx.coreId 1) :=
  by decide +kernel

/-- The queues of mxb and mxa take their commands. -/
theorem witness_mxPush : ∃ u v, stMx.mxPush (.loadB (.tile 0 1) .none 0 0x000077 0 48 64 none false false) = .ok u ∧
    stMx.mxPush (.streamA (.tile 0 1) .none 0 0x000077 0 64 none false false 0 1 48) = .ok v := ⟨_, _, rfl, rfl⟩

/-- mxo to tile 1, in FP32; mxw with nothing pending, and of a kernel that has ended. -/
def stEnded : State := { stG 0 0 with kernels := [(4097, { grid with ended := some 2 })] }

theorem witness_mxo : ∃ v u w, (stMx.tteHome stMx.coreId 1 ≠ stMx.tteHome stMx.coreId 0) ∧
    elemBytes .fp32 * 1 * 48 ≤ stMx.tileLen (stMx.tteHome stMx.coreId 1) ∧
    stMx.mxPush (.convert 0 1 48 1 .fp32 (modeOf none none stMx.slot.status) false none) = .ok v ∧
    (stG 0 0).Issues (specChecks [] [ext.od]) (scalarsOf [ext.od]) .drain (stG 0 0) ∧ (stG 0 0).kernelRuns = true ∧ (stG 0 0).mxPending = false ∧
    (stG 0 0).faultOf true = none ∧ ((stG 0 0).covered fun _ e => e == .matrix).writeS (opdOf ext.od) 1 = .ok u ∧
    stEnded.Issues (specChecks [] [ext.od]) (scalarsOf [ext.od]) .drain stEnded ∧ stEnded.kernelRuns = false ∧ stEnded.writeS (opdOf ext.od) 0 = .ok w ∧
    stMx.core.mx.claim = some stMx.slot.par.ident ∧ (stG 0 0).core.mx.claim ≠ some (stG 0 0).slot.par.ident ∧ (stG 0 0).slot.st ≠ .waiting :=
  ⟨_, _, _, by decide +kernel, by decide +kernel, rfl, issues (by rfl) rfl, rfl, rfl, rfl, rfl, issues (by rfl) rfl, rfl, rfl, rfl, by decide⟩

/-- mxw of a context that holds the claim, of a kernel that runs and of one that has ended. -/
theorem witness_mxw : ∀ s ∈ [stG 0 0, stEnded], let t : State := { s with core := { s.core with mx := { s.core.mx with claim := some 1 } } }
    t.Issues (specChecks [] [ext.od]) (scalarsOf [ext.od]) .drain t ∧ t.core.mx.claim = some t.slot.par.ident ∧ t.mxPending = false ∧
    t.faultOf true = none ∧ ∃ u w, (t.covered fun _ e => e == .matrix).writeS (opdOf ext.od) 1 = .ok u ∧ t.writeS (opdOf ext.od) 0 = .ok w := by
  intro s h
  simp only [List.mem_cons, List.not_mem_nil, or_false] at h
  rcases h with rfl | rfl <;> exact ⟨issues (by rfl) rfl, rfl, rfl, rfl, _, _, rfl, rfl⟩

/-- Each kind of command at the head runs: zeroing, loading a chunk, a stream of rows, and the conversion. -/
theorem witness_mxRuns : ∀ op ∈ [MxOp.zero 0 1 1, .loadB (.tile 0 1) .none 0 0x000077 0 1 1 none false false,
      .streamA (.tile 0 1) .none 0 0x000077 0 1 none false false 0 1 1, .convert 0 1 1 1 .fp32 .rne false none],
    (match (stMxq op).mxHead 0 with
      | some q => !(stMxq op).discards 0 q.from_ true && (match (stMxq op).mxRun 0 q with | some (_, none) => true | _ => false)
      | none => false) = true := by decide +kernel

/-- A command that stops: its tile lies in a bound register image. -/
def stMxStop : State :=
  let s := stMxq (.zero 1 1 1)
  { s with core := { s.core with tte := s.core.tte.set 1 (setField (s.core.tte[1]) 0 19 0) } }

theorem witness_mxStops : (match stMxStop.mxHead 0 with
    | some q => !stMxStop.discards 0 q.from_ true && (match stMxStop.mxRun 0 q with
      | some (_, some stop) => (match stop.ending false with | some (.fault _ _) => true | _ => false)
      | _ => false)
    | none => false) = true := by decide +kernel

/-- A chunk that waits at the core to the north. -/
theorem witness_forward : neighbour 0 .s = some 24 ∧ sameFormats 0x000077 0x000077 = true := ⟨rfl, by decide⟩

/-- Streams and chunks with an index in common and with none. -/
theorem witness_accumulated : min 0 64 = 0 ∧ 1 ≤ min 64 64 ∧ min 64 64 ≤ kBlock 0x000077 := by decide

/-- A copy between tile 1 and a layout of one element of FP32 outside the scratchpads, whose record is at 0x4000. -/
def stCopy : State :=
  let s := stMx
  let r : List Word := [0x1000, 9, BitVec.ofNat 64 (2 ^ 32 + 1), BitVec.ofNat 64 (2 ^ 32 + 1), 0, 0, 0, 0]
  poked (r.zipIdx.map fun p => (0x4000 + 8 * p.2, p.1)) { s with slot := { s.slot with w := s.slot.w.set 1 0xFFFFFFFFF04000, status := 0 } }

/-- The operands of a fill or a drain. -/
def copyExt : Ext := baseExt (.t 1) (.s (.w 1)) Spec.zero

theorem witness_copies : tileOf copyExt.od = some 1 ∧ copyExt.imm.getLsbD 2 = false ∧ copyExt.imm.toNat / 2 ^ 16 = 0 ∧
    stCopy.Issues (xcopyChecks copyExt [copyExt.oa]) (scalarsOf [copyExt.oa]) .drain stCopy ∧
    stCopy.twiceCheck (linksOf (scalarsOf [copyExt.oa])) = .ok () ∧ stCopy.readS (opdOf copyExt.oa) = .ok (0xFFFFFFFFF04000, stCopy) ∧
    stCopy.ownsTile stCopy.coreId stCopy.slot.tag 1 = true ∧
    (match stCopy.readLayout 0xFFFFFFFFF04000 with
      | .ok (l, v) => !reachesWindow l && decide (streamBytes l.fmt (l.e0 * l.e1 * l.e2 * l.e3) ≤ v.tileLen (v.tteHome v.coreId 1))
        && succeeds (v.tileArmed 1)
        && succeeds (v.queueCopy copyExt (.fill l) 1 (streamBytes l.fmt (l.e0 * l.e1 * l.e2 * l.e3)) (l.e0 * l.e1 * l.e2 * l.e3 * elemStorage l.fmt)
          [v.tteHome v.coreId 1] none none)
        && succeeds (v.queueCopy copyExt (.drain l) 1 (streamBytes l.fmt (l.e0 * l.e1 * l.e2 * l.e3)) (l.e0 * l.e1 * l.e2 * l.e3 * elemStorage l.fmt)
          [v.tteHome v.coreId 1] none none)
      | .error _ => false) = true :=
  ⟨rfl, rfl, by decide, issues (by rfl) rfl, rfl, rfl, by decide +kernel⟩

/-- Rows of a tensor of rank 1, from and to tile 1: one row. -/
def stRows : State :=
  let s := stMx
  { s with tensors := [{ tensor 1 2 1 with rank := 0 }], slot := { s.slot with w := (s.slot.w.set 1 1).set 2 0xFFFFFFFFF04000, status := 0 } }

def rowExt : Ext := { baseExt (.t 1) (.s (.w 1)) (.s (.w 2)) with imm := 8 }

theorem witness_rows : stRows.Issues (xcopyChecks rowExt [rowExt.oa, rowExt.ob]) (scalarsOf [rowExt.oa, rowExt.ob]) .drain stRows ∧
    stRows.twiceCheck (linksOf (scalarsOf [rowExt.oa, rowExt.ob])) = .ok () ∧ 1 = rowExt.imm.toNat / 8 % 4096 ∧ rowExt.imm.getLsbD 2 = false ∧
    stRows.ownsTile stRows.coreId stRows.slot.tag 1 = true ∧ (∃ d, stRows.named 1 = .ok d ∧ d.rank ≤ 1 ∧ d.rep.getLsbD 12 = true ∧ d.rep.getLsbD 13 = true ∧
      streamBytes d.fmt (1 * d.d0) ≤ stRows.tileLen (stRows.tteHome stRows.coreId 1)) ∧ (0xFFFFFFFFF04000 : Word).toNat % 4 = 0 ∧
    (∃ w, stRows.queueCopy rowExt (.gather 1 0xFFFFFFFFF04000 1) 1 (streamBytes .fp32 (1 * 2)) (1 * 2 * elemStorage .fp32)
      [stRows.tteHome stRows.coreId 1] none (some 1) = .ok w) ∧
    ∃ w, stRows.queueCopy rowExt (.scatter 1 0xFFFFFFFFF04000 1) 1 (streamBytes .fp32 (1 * 2)) (1 * 2 * elemStorage .fp32)
      [stRows.tteHome stRows.coreId 1] none (some 1) = .ok w :=
  ⟨issues (by rfl) rfl, rfl, by decide, rfl, by decide +kernel, ⟨_, rfl, by decide +kernel⟩,
    by decide, exists_of_succeeds (by decide +kernel), exists_of_succeeds (by decide +kernel)⟩

/-- xwait of a tile, and of all, with nothing pending. -/
theorem witness_xwait : (tileOf (.t 1)).isSome = true ∧ (stG 0 0).Issues {} [] .drain (stG 0 0) ∧ (stG 0 0).copiesPending (some 1) = false ∧
    (stG 0 0).copiesPending none = false ∧ (stG 0 0).faultOf false = none ∧ stEnded.kernelRuns = false ∧
    (stG 0 0).waitsOwn none = true ∧ stCopy.waitsOwn (some 1) = true ∧ (stG 0 0).waitsOwn (some 1) = false :=
  ⟨rfl, issues (by rfl) rfl, rfl, rfl, rfl, rfl, rfl, by decide +kernel⟩

/-- A core whose copy queue holds one command on tile 1, in a state of its move. -/
def stXq (fill begun moved : Bool) (st_ : Nat) : State :=
  let l : Layout := { base := 0x1000, fmt := .fp32, e0 := 1, e1 := 1, e2 := 1, e3 := 1, s0 := 0, s1 := 0, s2 := 0, s3 := 0 }
  let c : XCmd := { from_ := { stMx.origin with id := 9 }, mode := if fill then .fill l else .drain l, entry := 1,
                    targets := [{ core := 0, entry := 1, begun := begun, moved := moved }], len := 4, spare := 0, acq := none, rel := none,
                    barrier := none, left := 0, stream := if moved then some [0, 0, 0, 0] else none }
  { stMx with core := { stMx.core with tte := stMx.core.tte.set 1 (setField (stMx.core.tte[1]) 62 2 st_), xq := [c] } }

/-- A fill that may begin, and a drain; one of each that has begun and is moved at once: its next try has an end. -/
theorem witness_copyEvents : (∃ c g, (stXq true false false 0).xcmd 0 9 = some c ∧ c.targets[0]? = some g ∧ c.mode.fills = true ∧
      (stXq true false false 0).discards 0 c.from_ false = false ∧ (stXq true false false 0).canBegin 0 c 0 0 = true) ∧
    (∃ c g, (stXq false false false 2).xcmd 0 9 = some c ∧ c.targets[0]? = some g ∧ c.mode.fills = false ∧
      (stXq false false false 2).discards 0 c.from_ false = false ∧ (stXq false false false 2).canBegin 0 c 0 2 = true) :=
  ⟨⟨_, _, rfl, rfl, rfl, rfl, by decide +kernel⟩, ⟨_, _, rfl, rfl, rfl, rfl, by decide +kernel⟩⟩

/-- A gather or a scatter of one row of two elements between tile 1 and the tensor 1, that has begun; a drain to an address
without a translation. -/
def stMoved (fill : Bool) (st_ : Nat) : State :=
  let s := stXq fill true false st_
  { s with
    tensors := stRows.tensors
    core := { s.core with xq := s.core.xq.map fun c =>
      { c with mode := if fill then .gather 1 0xFFFFFFFFF04000 1 else .scatter 1 0xFFFFFFFFF04000 1, len := 8 } } }

/-- Whether the try of the command of a state comes to an end, without a stop. -/
def tryEnds (s : State) : Bool := match s.xcmd 0 9 with
  | some c => (match s.xcmdTry 0 c 0 with | some (t, none) => (t.xcmd 0 9).isSome | _ => false)
  | none => false

/-- Whether it stops with a fault. -/
def tryFaults (s : State) : Bool := match s.xcmd 0 9 with
  | some c => (match (List.range c.targets.length).findSome? (s.xcmdTry 0 c) with
    | some (_, some stop) => (stop.ending true).isSome
    | _ => false)
  | none => false

theorem witness_copyEnds : tryEnds (stMoved true 1) = true ∧ tryEnds (stMoved false 3) = true ∧ tryFaults (stXq false true false 3) = true ∧
    (stXq false true false 3).mxFault 0 9 true = none := by decide +kernel

/-- The operands of a bank transform of 4,096 bytes of tile 0, of BF16 and of FP32. -/
def bankExt (t : Fmt) : Ext := { baseExt (.t 0) (.s (.w 1)) (.s (.w 2)) with et := t, imm := 0x500 }

def stBank : State :=
  let s := stMx
  { s with slot := { s.slot with w := (s.slot.w.set 1 0x3F80).set 2 (BitVec.ofNat 64 (4096 * 2 ^ 32)), status := 0 } }

theorem witness_banks : (∀ oa ∈ [true, false], stBank.Issues (specChecks ((if oa then [(bankExt .bf16).oa] else []) ++ [(bankExt .bf16).ob]) [])
      (scalarsOf ((if oa then [(bankExt .bf16).oa] else []) ++ [(bankExt .bf16).ob])) .drain stBank) ∧
    wholeType .fp32 = true ∧ scaledType .bf16 = true ∧ convTypes .bf16 .fp16 = true ∧ (4096 : Nat) % (128 * elemStorage .fp32) = 0 ∧
    field (BitVec.ofNat 64 (4096 * 2 ^ 32)) 0 19 = 0 ∧ field (BitVec.ofNat 64 (4096 * 2 ^ 32)) 32 19 = 4096 ∧ 0 % 128 = 0 ∧ 4096 % 128 = 0 ∧
    succeeds (stBank.tileReady 0) = true ∧ 0 + 4096 ≤ stBank.tileLen (stBank.tteHome stBank.coreId 0) ∧
    succeeds (stBank.rangeRead (stBank.tteHome stBank.coreId 0) 0 128) = true := by
  refine ⟨?_, rfl, rfl, rfl, by decide, by decide, by decide, rfl, rfl, by decide +kernel⟩
  intro oa h
  simp only [List.mem_cons, List.not_mem_nil, or_false] at h
  rcases h with rfl | rfl <;> exact issues (by rfl) rfl

/-! ### Events -/

/-- A message of the tag 1 for handler 1. -/
def msg : Message := { header := 0x3F80000004010000, p := Vector.replicate 7 0 }

/-- What travels, alone, to core 75 of the grid, which has an IDLE slot of the kernel. -/
def stFly (f : Flight) (seen : Bool) : State :=
  { stG 0 0 with
    flight := [f]
    cores := [(75, { Core.reset 75 with
      slots := [(3, { Slot.reset with st := .idle, wp := 0x1000, par := { SlotPar.reset with kid := 4097 } })]
      kernels := if seen then [{ kid := 4097, ended := 0, endedAtRound := 0, s := 0, c := 0, h := 0, l := 0, stopSeen := true }] else [] })] }

/-- A message that becomes present, and one that is removed. -/
theorem witness_messages : ∃ k, (stFly (.message 4097 0 1 75 msg) false).flight[0]? = some (.message 4097 0 1 75 msg) ∧
    (stFly (.message 4097 0 1 75 msg) false).mayArrive 0 = true ∧ (stFly (.message 4097 0 1 75 msg) false).live 4097 = some k ∧
    (((stFly (.message 4097 0 1 75 msg) false).coreAt 75).of k.kid).stopSeen = false ∧
    ((stFly (.message 4097 0 1 75 msg) false).coreAt 75).hasRoom = true ∧
    (((stFly (.message 4097 0 1 75 msg) true).coreAt 75).of k.kid).stopSeen = true ∧ k.kid = 4097 ∧
    ((stFly (.message 4097 0 1 75 msg) false).coreAt 75).heap.find? (fun q => q.stamp == 0 && q.overflow) = none :=
  ⟨_, rfl, by decide +kernel, rfl, by decide +kernel⟩

/-- A gain update, an offer that a slot takes, one of a kernel that has ended, an answer, and a key update. -/
theorem witness_traffic : (stFly (.gain 4097 0 1 75 0 0x3F800000) false).mayArrive 0 = true ∧
    (stFly (.offer 4097 0 1 75 0 [] 0 0) false).mayArrive 0 = true ∧ ((stFly (.offer 4097 0 1 75 0 [] 0 0) false).live 4097).isSome = true ∧
    (((stFly (.offer 4097 0 1 75 0 [] 0 0) false).coreAt 75).of 4097).stopSeen = false ∧
    (stFly (.offer 4097 0 1 75 0 [] 0 0) false).idleSlots 4097 75 = [3] ∧ (stFly (.offer 4099 0 1 75 0 [] 0 0) false).live 4099 = none ∧
    (stFly (.answer 4097 75 0 1 true) false).flight[0]? = some (.answer 4097 75 0 1 true) ∧
    ((stFly (.keyUpdate 4097 0 75 0 8 .add 1 none) false).landed 0).live 4097 = some grid ∧
    (stFly (.keyUpdate 4097 0 75 0 8 .add 1 none) false).inImage 75 (8 + 8 * 0) BinOp.add.width = false ∧
    (stFly (.answer 4097 75 0 1 true) false).mayArrive 0 = true ∧ (stFly (.keyUpdate 4097 0 75 0 8 .add 1 none) false).mayArrive 0 = true :=
  by decide +kernel

/-- The conditions on a key update's bin. -/
theorem witness_bin : Memory.wf st.mem = true ∧ st.flips = [] := ⟨by decide +kernel, rfl⟩

/-- A message in the heap of core 75. -/
def stHeap (hid : Nat) : State :=
  let s := stFly (.answer 4097 75 0 1 true) false
  let m : HeapMsg := { stamp := 0, msg := { msg with header := setField msg.header 26 6 hid }, overflow := false, since := 0, raised := 0 }
  s.setCore 75 { s.coreAt 75 with heap := [m] }

/-- A pop for handler 1, and one for handler 0, which is zero. -/
theorem witness_pop : ∃ k m, ((stHeap 1).slotAt 75 3).st = .idle ∧ (stHeap 1).live ((stHeap 1).slotAt 75 3).par.kid = some k ∧
    (((stHeap 1).coreAt 75).of k.kid).stopSeen = false ∧ (stHeap 1).popWaits k = false ∧ firstOf (((stHeap 1).coreAt 75).ofTag k.tag) = some m ∧
    k.handlers.getD (hdrHid m.msg.header) 0 ≠ 0 ∧ (stHeap 1).regionRead 75 m = (true, stHeap 1) :=
  ⟨grid, { stamp := 0, msg := { msg with header := setField msg.header 26 6 1 }, overflow := false, since := 0, raised := 0 },
    by decide +kernel, by decide +kernel, by decide +kernel, by decide +kernel, rfl, by decide +kernel, State.regionRead_none rfl rfl 75⟩

/-- Messages in heap order: a larger gain, then of equal gains the earlier stamp; NaN last. -/
def heapMsg (stamp : Nat) (gain : BitVec 32) : HeapMsg :=
  { stamp := stamp, msg := { msg with header := setField msg.header 32 32 gain.toNat }, overflow := false, since := 0, raised := 0 }

theorem witness_first : (firstOf [heapMsg 3 0x3F800000, heapMsg 2 0x3F800000, heapMsg 1 0x7FC00000]).map (·.stamp) = some 2 ∧
    isNan32 (hdrGain (heapMsg 1 0x7FC00000).msg.header) = true ∧ (firstOf [heapMsg 2 0x7FC00000, heapMsg 1 0x7FC00000]).map (·.stamp) = some 1 := by
  decide +kernel

theorem witness_pop_zero : ∃ m, firstOf (((stHeap 0).coreAt 75).ofTag 1) = some m ∧ grid.handlers.getD (hdrHid m.msg.header) 0 = 0 :=
  ⟨{ stamp := 0, msg := { msg with header := setField msg.header 26 6 0 }, overflow := false, since := 0, raised := 0 },
    by decide +kernel⟩

/-- A kernel of one core that has run one activation since the last round, with a total h, and TOL 1.0. -/
def stRound (h : BitVec 32) : State :=
  let k : Kernel := { fetchKernel with
    record := [0, 0, BitVec.ofNat 64 (2 ^ 32 + 2 ^ 16 + 1), 0, 0x3F80000000000000, 0, 0, 0, 0, 0, 0, 0, 0, 0, 0, 0] }
  { State.reset with
    kernels := [(4097, k)]
    core := { Core.reset 0 with kernels := [{ kid := 4097, ended := 1, endedAtRound := 0, s := 0, c := 0, h := h, l := 0, stopSeen := false }] } }

/-- A round that does not meet tolerance, and one that does; a stop in flight; a quiescent kernel. -/
theorem witness_rounds : (∃ k, (stRound 0x3F800000).live 4097 = some k ∧ (stRound 0x3F800000).roundDue k = true ∧ ((stRound 0x3F800000).gathered k).meets = false) ∧
    (∃ k, (stRound 0x3F000000).live 4097 = some k ∧ (stRound 0x3F000000).roundDue k = true ∧ ((stRound 0x3F000000).gathered k).meets = true) ∧
    (stFly (.stop 4097 75) false).flight.findIdx? (· == .stop 4097 75) = some 0 ∧ (stFly (.stop 4097 75) false).mayArrive 0 = true ∧
    State.mayEnd { State.reset with kernels := [(4097, fetchKernel)] } fetchKernel = true ∧
    State.queueClear { State.reset with kernels := [(4097, fetchKernel)] } fetchKernel.desc = true ∧
    State.reportFree { State.reset with kernels := [(4097, fetchKernel)] } [4097] = true :=
  ⟨⟨_, rfl, by decide +kernel⟩, ⟨_, rfl, by decide +kernel⟩, by decide +kernel⟩

/-- Room in the heap. -/
theorem witness_heapRoom : ((st.core.heap.filter fun m => m.overflow == true).length < Config.heapOverflow) ∧
    (st.core.heap.filter fun m => m.overflow == false).length < Config.heapOnChip := by decide +kernel

/-- A message to move out, and none to move back. -/
theorem witness_heapMoves : (∃ m r, ((stHeap 1).coreAt 75).heap.find? (fun m => m.stamp == 0 && m.overflow != true) = some m ∧
      (stHeap 1).regionWrite 75 m = (true, r)) ∧
    ((stHeap 1).coreAt 75).heap.find? (fun m => m.stamp == 0 && m.overflow != false) = none :=
  ⟨⟨{ stamp := 0, msg := { msg with header := setField msg.header 26 6 1 }, overflow := false, since := 0, raised := 0 }, _, by decide +kernel,
    State.regionWrite_none rfl 75 _⟩, by decide +kernel⟩

/-- A kernel that waits on itself, and a stop report. -/
def stCycle : State :=
  { stG 0 0 with kernels := [(4097, { grid with pred := some 4097 })],
                 slot := { (stG 0 0).slot with st := .waiting, par := { (stG 0 0).slot.par with predWaits := true } } }

theorem witness_kernelFaults : stCycle.chain 4097 [4097] = true ∧ stCycle.reportFree (stCycle.onCycle 4097) = true ∧
    ∃ r : StopReport, ({ st with events := [.stop r] } : State).events[0]? = some (.stop r) ∧
      ({ st with events := [.stop r] } : State).firstStop 0 r = true ∧ ({ st with events := [.stop r] } : State).reportFree [r.kid] = true :=
  ⟨by decide +kernel, by decide +kernel,
    ⟨{ kid := 4097, tag := 1, core := 0, slot := 0, cause := 0x0F00, orig := 0, wp := 0, pc := 0, addr := 0, logref := 0, time := 0 }, rfl,
      by decide +kernel⟩⟩

/-- A user queue mapped at hardware slot 255, whose ring has an item ready, with these words of its record. -/
def stQueue (r : List Word) : State :=
  let s := poked ([(0x10000, 0x20000)] ++ r.zipIdx.map fun p => (0x20000 + 8 * p.2, p.1)) State.reset
  let m := (poked [] s).mem.map fun c => c
  { s with mem := m, ctls := [(0, { Ctl.reset with queues := [(255, { desc := 0x10000, mapped := true, seen := 0, next := 0 })] })] }

/-- Mapping a queue in a free slot, and unmapping one. -/
theorem witness_queueMap : (0 : Nat) < 4 ∧ (255 : Nat) < 256 ∧ 0x10000 % 128 = 0 ∧ (State.reset.ctlAt 0).queueAt 255 = none ∧
    State.reset.queueMapped 0x10000 = false ∧ State.reset.queueClear 0x10000 = true ∧
    State.reset.stageFree 0 (State.reset.queueStretches 0x10000) = true ∧ (State.reset.queueScan 0 0x10000).1 = true ∧
    (State.queueScan { State.reset with flips := [{ array := { pkg := 0, kind := 5, inst := 0 }, word := 0x2000, fatal := true }] } 0 0x10000).1 = false ∧
    ∃ q, ((stQueue []).ctlAt 0).queueAt 255 = some q ∧ q.mapped = true ∧ (stQueue []).queueClear q.desc = true :=
  ⟨by decide, by decide, rfl, rfl, rfl, rfl, by decide +kernel, by decide +kernel, by decide +kernel, _, rfl, by decide +kernel⟩

/-- A record that is refused as invalid, one whose grid cannot be placed, one of too high a priority, one whose entry is
not a handler, and one that is taken. -/
theorem witness_records : recordOk [] = false ∧
    recordOk [0x800001, 0x1000, BitVec.ofNat 64 (2 ^ 32 + 2 ^ 16 + 25), 0, 0, 0, 0, 0, 0, 0, 0, 0, 0, 0, 0, 0] = true ∧ State.reset.placeable 0 25 1 = false ∧
    State.reset.placeable 0 24 192 = true ∧ (0 : Nat) < 1 ∧
    State.reset.refusalCode 0 [0x800001, 0x1000, BitVec.ofNat 64 (2 ^ 32 + 2 ^ 16 + 1), 0, 0, 0, 0, 0, 0, 0, 0, 0, 0, 0, 0, 0] 0 [0x1000] = 0 ∧
    State.reset.refusalCode 0 [0x800001, 0x1000, BitVec.ofNat 64 (2 ^ 32 + 2 ^ 16 + 1), 0, 0, 0, 0, 0, 0, 0, 0, 0, 0, 0, 0, 0] 0 [] = 5 ∧
    State.reset.acceptedAt 0x40000 = none ∧ State.reset.pendingAt 0x40000 = false ∧ (0x40000 : Word) ≠ 0 := by
  decide +kernel

/-- The queue is ready, none of a higher level is, and a plan fits. -/
theorem witness_items : ∃ q, ((stQueue []).ctlAt 0).queueAt 255 = some q ∧ (stQueue []).queueReady q = true ∧
    ((stQueue []).otherQueues 0 255).all (fun o => (stQueue []).stageFree 0 ((stQueue []).headStretches o.2)) = true ∧
    (((stQueue []).contenders 0 ((stQueue []).otherQueues 0 255)).1.any
      ((stQueue []).queueAhead ((stQueue []).ctlAt 0) ((stQueue []).queueLevel q.desc) 255)) = false ∧
    (stQueue []).predStretches 1 0x40000 = [] ∧ (stQueue []).predStretches 0 0 = [] ∧ (stQueue []).stageFree 0 ((stQueue []).predStretches 4 0x40000) = true ∧
    ((stQueue []).stageScan 0 0 ((stQueue []).predStretches 4 0x40000)).1 = true ∧ (stQueue []).queueClear q.desc = true ∧
    (stQueue []).stageFree 0 (((stQueue []).queueSlot q.desc q.next, 256) :: (stQueue []).queueStretches q.desc) = true ∧
    (stQueue []).reportFree [] = true ∧ ((stQueue []).stageScan 0 0 [(q.desc, 128), ((stQueue []).queueSlot q.desc q.next, 256)]).1 = true ∧
    State.reset.planOk 0 { tag := 1, bands := [{ row0 := 0, height := 1, die := 0, x0 := 0, y0 := 0 }], handlers := [0x1000], tiles := [], aspace := 1 }
      [0x800001, 0x1000, BitVec.ofNat 64 (2 ^ 32 + 2 ^ 16 + 1), 0, 0, 0, 0, 0, 0, 0, 0, 0, 0, 0, 0, 0] = true :=
  ⟨_, rfl, by decide +kernel⟩

/-- A kernel with room for a second context. -/
def roomy : Kernel := { grid with record := [0, 0, BitVec.ofNat 64 (2 * 2 ^ 32 + 4 * 2 ^ 16 + 4), 0, 0, 0, 0, 0, 0, 0, 0, 0, 0, 0, 0, 0] }

/-- A released package with an unbound slot, and a bind record for the workspace at 0x1000; one that names a bound
workspace; slots in the states that an unbind meets. -/
def stBind : State := { stG 0 0 with kernels := [(4097, roomy)], ctls := [(0, { Ctl.reset with released := true })] }

/-- A context that is asked to unbind, at a cycle. -/
def stUnbind (now : Nat) : State :=
  { stBind with cycle := now, slot := { stBind.slot with par := { stBind.slot.par with unbind := true } } }

theorem witness_binds : (0x8000040000001000 : Word).getLsbD 63 = true ∧ (0 : Nat) < 18432 ∧ (15 : Nat) < 16 ∧ (stBind.ctlAt (pkgOf 0)).released = true ∧
    (stBind.slotAt 0 15).st = .unbound ∧ bindWp 0x8000040000001000 ≤ 0x5F000 ∧ (stBind.boundWs 0).contains (bindWp 0x8000040000001000) = false ∧
    stBind.kernelOfTag (pkgOf 0) (bindTag 0x8000040000001000) = some roomy ∧ stBind.mayStart roomy = true ∧ stBind.outbid roomy 0 = false ∧
    stBind.canBind roomy 0 (bindWp 0x8000040000001000) (bindPark 0x8000040000001000) = true ∧
    stBind.canBind roomy 0 (bindWp 0x8000040000001001) (bindPark 0x8000040000001001) = false ∧
    roomy.coreOf (bindVcore 0x8000040000001000) = some 0 ∧ (stBind.boundWs 0).contains (bindWp 0x8000040000000000) = true ∧
    ((stFly (.answer 4097 75 0 1 true) false).slotAt 75 3).st = .idle ∧ (stBind.slotAt 0 0).st = .active ∧
    ({ Slot.reset with st := .idle } : Slot).st = .idle ∧ ({ Slot.reset with st := .idle } : Slot).par.alarm = none ∧
    ((stUnbind 0).focusOn 0 0).slot.par.unbind = true ∧ ((stUnbind 0).focusOn 0 0).wdDue = false ∧ ((stUnbind 0).focusOn 0 0).takeUnbind.isSome = true ∧
    ((stUnbind (2 ^ 40)).focusOn 0 0).wdDue = true :=
  by decide +kernel

/-- R132: a wake ends a wait and leaves the latch clear, and a second one before the context issues sets the latch. -/
theorem test_second_wake : let x : Slot := { Slot.reset with st := .waiting, par := { SlotPar.reset with waiting := some (9, .w 3) } }
    (x.woken 5 0).st = .active ∧ (x.woken 5 0).par.wake = false ∧ ((x.woken 5 0).woken 5 0).par.wake = true := by decide

/-- R175: a masked store of one word to a device window makes one posted write, with the bytes that it writes. -/
theorem test_posted_word : ((st.ioStoreSome (2 ^ 49) [some 1, none, some 3]).ctlAt 0).posted = [(2 ^ 49, [some 1, none, some 3])] := by
  decide +kernel

/-- A parked context whose wake is there, or what it waits for. -/
def stParked : State :=
  { stG 0 0 with core := { (stG 0 0).core with
      parked := [{ Slot.reset with st := .waiting, wp := 0x3000, par := { SlotPar.reset with kid := 4097, ident := 7, wake := true } }] } }

theorem witness_parked : ∃ x, (stParked.coreAt 0).parkedAt 0x3000 = some x ∧ x.par.wake = true ∧ (stParked.slotAt 0 15).st = .unbound ∧
    (∀ k, stParked.live x.par.kid = some k → stParked.outbid k 0 = false) ∧ ({ x.par with wake := false, woke := true } : SlotPar).woke = true ∧
    ({ x.par with wake := false, met := true } : SlotPar).met = true ∧
    (stParked.boundWs 0).contains 0x3000 = false ∧ (stParked.live x.par.kid).isSome = true ∧ (stParked.live x.par.kid).all (stParked.sharesSpace 0) = true :=
  ⟨{ Slot.reset with st := .waiting, wp := 0x3000, par := { SlotPar.reset with kid := 4097, ident := 7, wake := true } }, by decide +kernel,
    rfl, by decide +kernel, by intro k h; cases h; decide +kernel, rfl, by decide +kernel⟩

/-- A core all of whose slots wait past their kernel's limit, with a message of another tag. -/
def stOverdue : State :=
  let y : Slot := { st.slot with st := .waiting }
  { stG 0 0 with timeBase := 2 ^ 62, slot := y,
                 core := { (stG 0 0).core with slots := (List.range 15).map fun i => (i + 1, y),
                                               heap := [{ stamp := 0, msg := { msg with header := 0x04020000 }, overflow := false, since := 0, raised := 0 }] } }

theorem witness_overdue : (∀ y ∈ stOverdue.slotsOf 0, y.st = .active ∨ y.st = .waiting) ∧
    ((stOverdue.slotsOf 0).filter fun y => y.par.unbind).length < (stOverdue.unserved 0).length ∧ stOverdue.overdue (stOverdue.slotAt 0 15) = true ∧
    (∀ y ∈ stOverdue.slotsOf 0, stOverdue.overdue y = true → (stOverdue.slotAt 0 15).par.waitFrom ≤ y.par.waitFrom) := by decide +kernel

/-- A context both of whose streams are blocked; one whose watchdog is due; one that the watchdog has stopped; one that
waits for a deadline that is here; slots with alarms. -/
def stStalled : State := { stG 0 0 with slot := { (stG 0 0).slot with par := { (stG 0 0).slot.par with stalled := true } } }
def stSlow : State := { stG 0 0 with cycle := 2 ^ 40 }
def stIdle (p : SlotPar) (x : SlotState) : State := { stG 0 0 with timeBase := 5, slot := { (stG 0 0).slot with st := x, par := p } }

theorem witness_contexts : (stStalled.focusOn 0 0).slot.st = .active ∧ (stStalled.focusOn 0 0).slot.par.stalled = true ∧
    (stSlow.focusOn 0 0).wdDue = true ∧ (stSlow.focusOn 0 0).maySwitch = true ∧
    ((stIdle { SlotPar.reset with stopped := 0x0F02 } .stopped).slotAt 0 0).st = .stopped ∧
    ((stIdle { SlotPar.reset with stopped := 0x0F02 } .stopped).slotAt 0 0).par.stopped = 0x0F02 ∧
    ((stIdle { SlotPar.reset with waiting := some (5, .w 3) } .waiting).slotAt 0 0).par.waiting = some (5, .w 3) ∧ (5 : Word).toNat ≤ 5 ∧
    (((stIdle { SlotPar.reset with waiting := some (5, .w 3) } .waiting).slotAt 0 0).rung 5 0).st = .waiting ∧
    (((stIdle { SlotPar.reset with waiting := some (5, .w 3), alarm := some ⟨5, 0⟩ } .waiting).slotAt 0 0).rung 5 0).st ≠ .waiting ∧
    ((stIdle { SlotPar.reset with alarm := some { deadline := 5, header := 0 } } .active).slotAt 0 0).par.alarm = some { deadline := 5, header := 0 } ∧
    (msg.header ≠ 0) ∧ (stIdle SlotPar.reset .active).hasRoomAt 0 = true ∧
    ∃ r : StopReport, ({ st with events := [.stop r] } : State).events.findIdx? (fun e => (expiryOf 0 0 e).isSome) = some 0 ∧
      ({ st with events := [.stop r] } : State).firstStop 0 r = true :=
  ⟨rfl, rfl, by decide +kernel, by decide +kernel, rfl, rfl, rfl, by decide, by decide +kernel, by decide +kernel, rfl, by decide,
    by decide +kernel, ⟨{ kid := 4097, tag := 1, core := 0, slot := 0, cause := 0x0F02, orig := 0, wp := 0, pc := 0, addr := 0, logref := 0, time := 0 }, by decide +kernel⟩⟩

/-- The watchdog of a context whose vector stream is blocked on a full queue is due. -/
def stFull : State :=
  let e := entry .mov { vadd with od := .v (.q 2) }
  { stSlow with slot := { stSlow.slot with q2 := [1, 2, 3, 4], seq := { items := [.one e], opened := none } } }

theorem witness_blocked : (match (stStalled.focusOn 0 0).vectorTry with | .empty => true | _ => false) = true ∧
    (match stFull.vectorTry with | .blocked (.queue _) => true | _ => false) = true ∧ (stFull.focusOn 0 0).wdDue = true ∧
    (stFull.focusOn 0 0).towardSwitch.isNone = true := by decide +kernel

/-! ### Pages, the control die, links, boot -/

/-- A leaf entry of a page at 0x200000. -/
def stPage : State := poked [] { st with mem := Memory.setBytes st.mem 0x1000 (toBytes 8 0x20003B) }

/-- A page on its die, and the windows of MOVCFG. -/
def home (x : PageState) (moves : List Nat) : PageHome := { pte := 0x1000, frame := 0x200000, small := false, st := x, moves := moves, queue := [] }

theorem witness_moves : (∃ f small, stPage.leafFrame 0x1000 = some (f, small)) ∧ (1 : Nat) < 32 ∧ (home .resident []).st = .resident ∧
    field (Ctl.reset.movcfg &&& ~~~0xF) 0 4 = 0 ∧ dieOfAddr 0x200000 = 0 ∧ dieOfAddr 0x200000 ≠ 1 ∧
    ((home .resident []).moves.filter fun t => decide (5 ≤ t + field Ctl.reset.movcfg 8 28)).length < field Ctl.reset.movcfg 0 4 ∧
    1 ≤ field Ctl.reset.movcfg 0 4 ∧
    field Ctl.reset.movcfg 0 4 ≤ ((home .resident [5, 5, 5, 5]).moves.filter fun t => decide (5 ≤ t + field Ctl.reset.movcfg 8 28)).length :=
  ⟨⟨0x200000, false, by decide +kernel⟩, by decide, rfl, by decide +kernel⟩

/-- A page that moves, with an uncorrectable line in its frame. -/
def stMove : State :=
  { stPage with pages := [home (.migrating 1) []], flips := [{ array := { pkg := 0, kind := 5, inst := 0 }, word := 0x40000, fatal := true }] }

theorem witness_moveEnds : (stMove.pageAt 0x1000 0x200000 false).st = .migrating 1 ∧
    (∃ b, stMove.flips.find? (fun b => b.fatal && 0x200000 ≤ b.word * 8 && b.word * 8 < 0x200000 + pageSize false) = some b) ∧
    Memory.wf stMove.mem = true ∧ 0x200000 + 0x200000 ≤ 0x400000 :=
  ⟨by decide +kernel, ⟨{ array := { pkg := 0, kind := 5, inst := 0 }, word := 0x40000, fatal := true }, by decide +kernel⟩, by decide +kernel⟩

/-- A page that its entry names no longer. -/
theorem witness_moveGivenUp : stMove.pages.find? (fun p => p.pte == 0x1000 && p.moving) = some (home (.migrating 1) []) ∧
    stMove.leafFrame 0x1000 = some (0x200000, false) ∧ State.leafFrame { stMove with mem := [] } 0x1000 ≠ some (0x200000, false) := by decide +kernel

/-- Every frame search ends where a frame is blank, and finds none where none is. -/
theorem firstFrame_none {s : State} {base size : Nat} : ∀ (k n : Nat), (∀ m, n ≤ m → m < n + k → s.blankFrame (base + m * size) size = false) →
    s.firstFrame base size n k = none
  | 0, _, _ => rfl
  | k + 1, n, h => by
    unfold State.firstFrame
    rw [h n (by omega) (by omega)]
    exact firstFrame_none k (n + 1) fun m a b => h m (by omega) (by omega)

/-- A die all of whose frames a user queue's ring names. -/
def stFullDie : State :=
  { stPage with
    pages := [home (.migrating 1) []]
    mem := Memory.setBytes (Memory.setBytes stPage.mem 0x10000 (toBytes 8 (2 ^ 46))) 0x10008 (toBytes 8 31)
    ctls := [(0, { Ctl.reset with queues := [(0, { desc := 0x10000, mapped := true, seen := 0, next := 0 })] })] }

theorem witness_fullDie : stFullDie.leafFrame 0x1000 = some (0x200000, false) ∧ stFullDie.newFrame 1 (pageSize false) = none := by
  refine ⟨by decide +kernel, ?_⟩
  have named : (2 ^ 46, 256 * 2 ^ 31) ∈ stFullDie.namedStretches := by decide +kernel
  have blank : ∀ m, m < Config.dieMemoryBytes / pageSize false → stFullDie.blankFrame (dieBase 1 + m * pageSize false) (pageSize false) = false := by
    intro m h
    have h : m < Config.dieMemoryBytes / 2 ^ 21 := h
    have e : Config.dieMemoryBytes ≤ 256 * 2 ^ 31 := by decide
    have r : stFullDie.namedStretches.any (fun k => decide (k.1 < dieBase 1 + m * pageSize false + pageSize false)
        && decide (dieBase 1 + m * pageSize false < k.1 + k.2)) = true := by
      rw [List.any_eq_true]
      refine ⟨_, named, ?_⟩
      have b : dieBase 1 = 2 ^ 46 := by decide
      have p : pageSize false = 2 ^ 21 := rfl
      rw [b, p]
      simp only [Bool.and_eq_true, decide_eq_true_eq]
      omega
    unfold State.blankFrame State.frameNamed
    simp only [r, Bool.or_true, Bool.not_true, Bool.and_false]
  unfold State.newFrame
  dsimp only
  rw [blank _ (Nat.mod_lt _ (by decide)), firstFrame_none _ _ fun m _ b => blank m (by omega)]
  rfl

/-- A die whose first frame is blank has a frame to give. -/
theorem frame_given {s : State} (w : s.blankFrame (2 ^ 46) (2 ^ 21) = true) :
    ∃ g, 2 ^ 46 ≤ g ∧ g < 2 ^ 47 ∧ s.newFrame 1 (pageSize false) = some g := by
  have n : ∃ n, Config.dieMemoryBytes / 2 ^ 21 = n + 1 ∧ n < 2 ^ 25 := ⟨Config.dieMemoryBytes / 2 ^ 21 - 1, by decide +kernel⟩
  obtain ⟨n, e, l⟩ := n
  have m : Config.freeFrame s.free % (n + 1) < n + 1 := Nat.mod_lt _ (by omega)
  have b : dieBase 1 = 2 ^ 46 := by decide
  have q : pageSize false = 2 ^ 21 := rfl
  unfold State.newFrame
  simp only [q, b, e]
  by_cases f : s.blankFrame (2 ^ 46 + Config.freeFrame s.free % (n + 1) * 2 ^ 21) (2 ^ 21) = true
  · rw [if_pos f]
    exact ⟨_, by omega, by omega, rfl⟩
  · rw [if_neg f]
    unfold State.firstFrame
    rw [show 2 ^ 46 + 0 * 2 ^ 21 = 2 ^ 46 from rfl, if_pos w]
    exact ⟨_, Nat.le_refl _, by omega, rfl⟩

/-- A frame of die 1 is at home there. -/
theorem home_of_frame {g : Nat} (l : 2 ^ 46 ≤ g) (u : g < 2 ^ 47) : homePkg g = 0 ∧ homeNode g = 1 ∧ g / 2 ^ 50 % 4 = 0 := by
  have b : 2 ^ 52 ≤ spBase := by decide
  have c : 2 ^ 52 ≤ tensorBase := by decide
  have t : isTensor g = false := by unfold isTensor; simp; omega
  have s : isScratch g = false := by unfold isScratch; simp; omega
  have i : isIo g = false := by unfold isIo; simp; omega
  refine ⟨?_, ?_, by omega⟩
  · unfold homePkg; rw [t, s]; simp; omega
  · unfold homeNode homeDie; rw [i, t, s]; simp; omega

/-- A page that moves to a die with free frames, and the same page with every link of its own die down. -/
def stRoom : State := { stPage with pages := [home (.migrating 1) []] }
def stCut (x : LinkState) (s : State) : State := (List.range 5).foldl (fun s i => s.setPort i { s.portAt i with st := x }) s

/-- The acts of its move, whichever frame is taken. -/
theorem witness_moveComplete : stRoom.leafFrame 0x1000 = some (0x200000, false) ∧
    ∃ g t, stRoom.newFrame 1 (pageSize false) = some g ∧ stRoom.drew.moveActs 0x1000 0x200000 g (pageSize false) = .ok t := by
  refine ⟨by decide +kernel, ?_⟩
  obtain ⟨g, l, u, e⟩ := frame_given (s := stRoom) (by decide +kernel)
  obtain ⟨p, n, k⟩ := home_of_frame l u
  have way : ∀ c, stRoom.drew.passage c 0 0 g = .ok () := by
    intro c
    unfold State.passage State.routeTo
    rw [p, n, show stRoom.drew.innerUse 0 0 1 = .passes by decide +kernel]
    rfl
  obtain ⟨v, q⟩ := exists_of_succeeds (r := stRoom.drew.passage (.stagehand 0) (Agent.pkg (.stagehand 0)) 8 0x1000) (by decide +kernel)
  refine ⟨g, ?_⟩
  unfold State.moveActs
  rw [k, show 0x200000 / 2 ^ 50 % 4 = 0 from rfl, show homeNode 0x200000 = 0 by decide +kernel]
  dsimp only
  rw [way, act_bind_ok, State.checkWrite_none rfl, act_bind_ok]
  unfold State.switchEntry
  rw [k]
  dsimp only
  rw [q, act_bind_ok, State.checkRead_none rfl, act_bind_ok]
  unfold State.storeKey
  rw [State.checkWrite_none rfl]
  exact ⟨_, e, rfl⟩

/-- No route is left for its stream. -/
theorem witness_moveCut : ∃ g m, (stCut .down stRoom).newFrame 1 (pageSize false) = some g ∧
    (stCut .down stRoom).drew.moveActs 0x1000 0x200000 g (pageSize false) = .error (.trap m) := by
  obtain ⟨g, l, u, e⟩ := frame_given (s := stCut .down stRoom) (by decide +kernel)
  obtain ⟨p, n, k⟩ := home_of_frame l u
  have way : ∀ c, (stCut .down stRoom).drew.passage c 0 0 g = .error (.trap ((stCut .down stRoom).drew.undelivered c g)) := by
    intro c
    unfold State.passage State.routeTo
    rw [p, n, show (stCut .down stRoom).drew.innerUse 0 0 1 = .none_ by decide +kernel]
    rfl
  refine ⟨g, (stCut .down stRoom).drew.undelivered (.stagehand 0) g, e, ?_⟩
  unfold State.moveActs
  rw [k, show 0x200000 / 2 ^ 50 % 4 = 0 from rfl, show homeNode 0x200000 = 0 by decide +kernel]
  dsimp only
  rw [way]
  rfl

/-- SYSQ on, and a token. -/
def stSysq : State := { st with ctls := [(0, { Ctl.reset with sysq := 1, tokens := [9] })] }

/-- Links that retrain keep a gather waiting; an operation that no route takes to its source. -/
theorem witness_routes : (∃ k, (stRound 0x3F800000).live 4097 = some k ∧ (stRound 0x3F800000).gatherUse k = .passes) ∧
    (∃ k, (stCut .retraining (stRound 0x3F800000)).live 4097 = some k ∧ (stCut .retraining (stRound 0x3F800000)).gatherUse k = .waits) ∧
    State.gatherUse { State.reset with kernels := [(4097, fetchKernel)] } fetchKernel = .passes ∧ stSysq.replyUse 0 9 = .passes ∧
    ∃ o, (stOps (.set 5 7)).tops[0]? = some o ∧
      traps ((stCut .down (stOps (.set 5 7))).homesReach o (tensor 1 2 3) { tensor 2 2 3 with creator := 576 }) = true :=
  ⟨⟨_, rfl, by decide +kernel⟩, ⟨_, rfl, by decide +kernel⟩, by decide +kernel, by decide +kernel, _, rfl, by decide +kernel⟩

/-- A queued shootdown, and a page-fault slot in use. -/
theorem witness_shootdowns : (∃ d ds, ((stG 0 0).shoot 0 2 5 |>.ctlAt 0).shootdowns = d :: ds) ∧
    (stG 0 0).reachingOut (fun _ => true) = false ∧
    State.reachingOut { stG 0 0 with slot := { (stG 0 0).slot with par := { (stG 0 0).slot.par with
      io := { waiting := some (2 ^ 49, 8), got := [] } } } } (fun _ => true) = true ∧
    (stG 0 0).sysJoins 0 (pkgOf (stG 0 0).coreId) = true ∧
    (((stFault 0x8000000000000000).coreAt 0).pfe[(15 : Fin 16)]).getLsbD 63 = true ∧ (75 : Nat) ∈ clusterCores 0 ∧
    (∀ j, j < 16 → ((stFault 0x8000000000000000).slotAt 0 j).par.ident = 1 → j = 0) :=
  ⟨⟨_, _, rfl⟩, by decide +kernel⟩

/-- SYSQ off and on, a token, and an array. -/
theorem witness_die : (stSysq.ctlAt 0).sysq.getLsbD 0 = true ∧ (st.ctlAt 0).sysq.getLsbD 0 = false ∧ (1 : Word).getLsbD 0 = true ∧
    (stSysq.ctlAt 0).tokens.contains 9 = true ∧ ArrayId.exists_ { pkg := 3, kind := 5, inst := 511 } = true ∧
    ArrayId.exists_ { pkg := 0, kind := 6, inst := 83 } = true ∧ (3 : Nat) < 4 ∧ (7 : Nat) < 8 ∧
    DieReg.exists_ (.rgn 18431 3) = true ∧ DieReg.exists_ (.rgn 0 4) = false ∧ DieReg.exists_ (.sysRval 0 8) = false := by decide +kernel

/-- A capped mode that is met, one that is not at the least duty, and none. -/
theorem witness_power : (4095 : Nat) < 4096 ∧ (st.ctlAt 0).thermal = none ∧ (st.ctlAt 0).pwrctl.getLsbD 0 = false ∧
    (∃ c : Ctl, c.thermal = none ∧ c.pwrctl.getLsbD 0 = true ∧ 1000 = max 1000 (min 3200 (field c.pwrctl 16 12))) ∧
    ((true = true ↔ 1000 ≤ 1000) ∧ (true = true ∨ 100 = 0)) ∧ (false = true ↔ 1001 ≤ 1000) ∧ (false = true ∨ 0 = 0) :=
  ⟨by decide, rfl, by decide, ⟨{ Ctl.reset with pwrctl := 1 }, rfl, by decide⟩, by decide⟩

/-- Port 1, of die 0, and its peer at the other end: up or retraining, with the last byte of a frame to come. -/
def stPort (x : LinkState) (retrains : Nat) : State :=
  (st.setPort 1 { Port.reset with st := x, retrains := retrains, recvSeq := 1, stream := [1, 0, 1] }).setPort (peerPort 1)
    { Port.reset with st := x, retrains := retrains, out := [7], resend := [[7]] }

/-- A flit with the byte that its sender has to send and zeros, with its check: the one expected, one received before, and one
too late; a wrong check. -/
theorem witness_flits : ((stPort .up 0).portAt 1).st = .up ∧ (7 :: List.replicate 127 (0 : Byte)).length = 128 ∧
    armedPort (peerPort 1) ((stPort .up 0).logAt (portArray (peerPort 1))) = false ∧
    (∃ crc, crc32 (7 :: List.replicate 127 0) = crc) ∧ 1 = ((stPort .up 0).portAt 1).recvSeq ∧ 0 < ((stPort .up 0).portAt 1).recvSeq ∧
    ((stPort .up 0).portAt 1).recvSeq < 2 ∧ ((stPort .up 0).portAt 1).replays < 2 ∧
    min 128 ((stPort .up 0).portAt (peerPort 1)).out.length = 1 ∧
    (7 :: List.replicate 127 (0 : Byte)).take 1 = ((stPort .up 0).portAt (peerPort 1)).out.take 1 ∧ ({ Port.reset with replays := 2 } : Port).replays ≥ 2 :=
  ⟨by decide +kernel, rfl, by decide +kernel, ⟨_, rfl⟩, by decide +kernel⟩

theorem witness_training : portExists 1 = true ∧ (1 : Nat) < 512 ∧ (st.portAt 1).st = .untrained ∧ ((stPort .retraining 2).portAt 1).st = .retraining ∧
    3 ≤ max ((stPort .retraining 2).portAt 1).retrains ((stPort .retraining 2).portAt (peerPort 1)).retrains + 1 ∧
    max ((stPort .retraining 1).portAt 1).retrains ((stPort .retraining 1).portAt (peerPort 1)).retrains + 1 < 3 ∧
    peerPort 1 = 8 ∧ peerPort 8 = 1 := by decide +kernel

/-- A block to send, and one that must be sent again; a raw frame that the flits have brought, and one that is corrupt. -/
theorem witness_frames : 1 ≤ ([7] : List Byte).length ∧ ([7] : List Byte).length ≤ 256 ∧ ((stPort .up 0).portAt 8).resend.head? = some [7] ∧
    ((stPort .up 0).portAt 1).expander.frame 0x00010001 [7] = some [(7, true)] ∧
    ({ Port.reset with stream := [1, 0, 1, 0, 7, 5] } : Port).stream.take (frameBytes 0x00010001 [7]).length = frameBytes 0x00010001 [7] ∧
    ((stPort .up 0).portAt 1).expander.frame 0 [7] = none ∧ ((stPort .up 0).portAt 1).corrupt < 2 := by decide +kernel

/-- An endpoint's write of the last bytes below the I/O space of a die, an identity, and completions that are waited for. -/
theorem witness_endpoints : Iommu.through .bare 0x1000 8 true = some 0x1000 ∧ (st.ctlAt 0).iommu.through 0x1000 8 true = none ∧
    Iommu.through (.maps [{ base := 0x1000, size := 8, frame := 0x2000, r := true, w := false }]) 0x1000 8 true = none ∧
    Iommu.through (.maps [{ base := 0x1000, size := 8, frame := 0x2000, r := true, w := false }]) 0x1000 8 false = some 0x2000 ∧
    (State.ctlAt { st with ctls := [(0, { Ctl.reset with iommu := .bare })] } 0).iommu = .bare ∧
    State.dieReach { st with ctls := [(0, { Ctl.reset with iommu := .bare })] } (.endpoint 0) 0x1000 8 = .yes ∧ st.dieReach (.endpoint 0) 0x1000 8 = .yes ∧ ([0] : List Byte).length ≤ 512 ∧ st.flips = [] ∧ Memory.wf st.mem = true ∧ (7 : Nat) < 8 ∧ 1 ≤ 2047 ∧ 2047 < 2048 ∧
    ((stIdle { SlotPar.reset with io := { waiting := some (3, 1), got := [] } } .active).slotAt 0 0).par.io.waiting = some (3, ([0] : List Byte).length) ∧
    ((stIdle { SlotPar.reset with request := .ioAtomic .fetchAdd 3 8 1 0 false none } .active).slotAt 0 0).par.request = .ioAtomic .fetchAdd 3 8 1 0 false none :=
  by decide +kernel

/-- An image of type 1 whose digest of the signing key is x. -/
def image (x : Byte) : BootImage where
  header := List.replicate 6 0 ++ [1] ++ List.replicate 81 0 ++ [x]
  payload := []
  lmsSig := []
  ecdsaKey := []
  lmsKey := []

theorem fails_first {im : BootImage} (h : digestOf (headerBytes im 0x58 48) ≠ Config.fusedEcdsa) : firstFailing im = some 1 := by
  unfold firstFailing
  simp [h]

/-- An image that fails the first check: two that differ in the digest cannot both have the fused one. -/
theorem witness_image : ∃ x : Byte, imageType (image x) = (State.reset.ctlAt 0).booted.length + 1 ∧ (State.reset.ctlAt 0).booted.length < 3 ∧
    firstFailing (image x) = some 1 ∧ (State.reset.ctlAt 0).failed = none ∧ ({ Ctl.reset with failed := some 1 } : Ctl).failed.isSome = true := by
  have e : digestOf (headerBytes (image 0) 0x58 48) ≠ digestOf (headerBytes (image 1) 0x58 48) := by decide +kernel
  by_cases h : digestOf (headerBytes (image 0) 0x58 48) = Config.fusedEcdsa
  · exact ⟨1, by decide +kernel, by decide +kernel, fails_first fun q => e (h.trans q.symm), rfl, rfl⟩
  · exact ⟨0, by decide +kernel, by decide +kernel, fails_first h, rfl, rfl⟩

/-- The stagehands' acts need their firmware, which has not run at reset, and a hart's its operating system. -/
theorem witness_unbooted : imageFor (.queueUnmap 0 255) = some (0, 2) ∧ 2 ∉ (State.reset.ctlAt 0).booted ∧
    imageFor (.sysqWrite 0 1) = some (0, 3) ∧ 3 ∉ (State.reset.ctlAt 0).booted := by decide +kernel

/-- Firmware that has run. -/
theorem witness_release : ∃ c : Ctl, c.booted.contains 1 = true ∧ (0 : Nat) < 4 := ⟨{ Ctl.reset with booted := [1] }, by decide⟩

/-! ### Encodings and steps -/

/-- A word of major 0x3F, an instruction whose fields are refused, and one with an unused field. -/
theorem witness_encodings : (0xFC : IWord).extractLsb' 2 6 = 0x3F ∧ (Instr.bfx (.w 1) (.w 2) 60 4 false).bytes ≠ 0 ∧
    (Instr.bfx (.w 1) (.w 2) 60 4 false).defined = false ∧
    (∃ x u, (Instr.ungang { baseExt Spec.zero Spec.zero Spec.zero with imm := 1 }).extUse = some (x, u) ∧ x.fits u = false) ∧
    (Instr.ungang { baseExt Spec.zero Spec.zero Spec.zero with imm := 1 }).defined = true ∧ (Instr.add (.q 0) (.w 1) (.link .n)).wellFormed = true :=
  ⟨by decide, by decide, rfl, ⟨_, _, rfl, rfl⟩, rfl, rfl⟩

/-- A step runs add w5, w1, w2; so does the turn of its slot. -/
theorem witness_step : (st.slot.st = .active ∧ st.slot.par.issues = true) ∧ st.gangOf st.coreId st.slotId = none ∧ st.pendingHere = [] ∧ st.pages = [] ∧ st.wdDue = false ∧ st.slot.par.unbind = false ∧
    (match st.fetch with | .ok (ws, _) => ws == [0x00882500] | .error _ => false) = true ∧ decode [0x00882500] = .ok (.add (.w 5) (.w 1) (.w 2)) ∧ st.agenda = [] ∧
    State.agenda { st with agenda := [.issue 0 0] } = Turn.issue 0 0 :: [] ∧ st = State.focusOn { st with agenda := [] } 0 0 :=
  ⟨⟨rfl, rfl⟩, rfl, by decide +kernel, rfl, by decide +kernel, rfl, by decide +kernel, rfl, rfl, rfl, by decide +kernel⟩

/-- The context without the issue slot, alone on its core. -/
def stYielded : State := { st with slot := { st.slot with par := { st.slot.par with issues := false } } }

/-- The same beside slot 1, ACTIVE: with the issue slot or without, and its level. -/
def stBeside (issues : Bool) (level : Nat) (last : Option Nat) : State :=
  { stYielded with core := { stYielded.core with
      lastIssued := last
      slots := [(1, { stYielded.slot with par := { stYielded.slot.par with issues := issues, level := level } })] } }

/-- A context that waits for time 5, at wait w5, w1; its wait ends once that time is here. -/
def stWaits (now : Nat) : State :=
  let s := State.reset.withFetchWord 32 0x008025A4
  { s with
    timeBase := now
    slot := { s.slot with st := .waiting, w := s.slot.w.set 1 5, par := { s.slot.par with issues := false, waiting := some (5, .w 5) } } }

/-- R132, R187: before the deadline the context goes on waiting; then it takes the issue slot and writes 0. -/
theorem witness_waiting_turn : (stWaits 4).slot.st = .waiting ∧ (stWaits 4).readyAt contextTurn (stWaits 4).slotId = false ∧
    (stWaits 5).readyAt contextTurn (stWaits 5).slotId = true ∧ (stWaits 5).mayIssue contextTurn = true := by decide +kernel
theorem test_wait_ends : (match step (stWaits 5) with
    | .next t => t.slot.st == .active && t.slot.par.issues && t.slot.pc == (stWaits 5).slot.pc + 4 | _ => false) = true := by decide +kernel

theorem witness_issue : stYielded.agenda = [] ∧ stYielded.pendingHere = [] ∧ (stYielded.slot.st = .active ∧ stYielded.slot.par.issues = false) ∧
    stYielded.mayIssue contextTurn = true ∧ (stBeside true 0 none).mayIssue contextTurn = false ∧
    (stBeside false 1 none).mayIssue contextTurn = false ∧ (stBeside false 1 none).slot.par.level < ((stBeside false 1 none).slotAt 0 1).par.level ∧
    (stBeside true 0 none).wdDue = false ∧ (stBeside true 0 none).slot.par.unbind = false := by decide +kernel

/-- R222: of two ready contexts of one level the one after the last goes first. -/
theorem test_round_robin : (stBeside false 0 (some 0)).mayIssue contextTurn = false ∧ (stBeside false 0 (some 1)).mayIssue contextTurn = true := by
  decide +kernel

/-- A fetch of the word. -/
theorem witness_fetch : st.coreId < 18432 ∧ st.slot.pc = BitVec.ofNat 64 (0xFFFFFFFFF00000 + 0x2000) ∧ 0x2000 % 4 = 0 ∧ st.hist = [] ∧ st.flips = [] ∧
    (0x00882500 : IWord) = BitVec.ofNat 32 (ofBytes (Memory.bytes st.mem (spKey st.coreId 0x2000) 4)) ∧ 0x2000 + 4 * wordCount 0x00882500 ≤ 0x60000 :=
  ⟨by decide, by decide +kernel, rfl, rfl, rfl, by decide +kernel⟩

/-- The invariants hold of a state that runs, and not of every one; an agenda that leaves the blade. -/
theorem witness_invariants : st.sound = true ∧ st.focused = true ∧ st.onBlade = true ∧ State.focused { st with slotId := 16 } = false ∧
    State.sound { st with mem := [(5, 0)] } = false ∧ State.onBlade { st with agenda := [.vectorLate 18432 0] } = false ∧ 18432 ≤ 18432 ∧ 16 ≤ 16 ∧ State.agenda { st with agenda := [.issue 18432 0] } = [Turn.issue 18432 0] :=
  by decide +kernel

/-! ### The spec's worked examples -/

/-- R106: −7 and 2. -/
theorem test_div : (match exec (.div (.w 3) (.w 1) (.w 2)) (stW 0xFFFFFFFFFFFFFFF9 2) with
    | .next t => t.slot.w[(3 : Fin 24)] == 0xFFFFFFFFFFFFFFFD | _ => false) = true := by decide +kernel
theorem test_divu : (match exec (.divu (.w 3) (.w 1) (.w 2)) (stW 0xFFFFFFFFFFFFFFF9 2) with
    | .next t => t.slot.w[(3 : Fin 24)] == 0x7FFFFFFFFFFFFFFC | _ => false) = true := by decide +kernel
theorem test_rem : (match exec (.rem (.w 3) (.w 1) (.w 2)) (stW 0xFFFFFFFFFFFFFFF9 2) with
    | .next t => t.slot.w[(3 : Fin 24)] == 0xFFFFFFFFFFFFFFFF | _ => false) = true := by decide +kernel
/-- R106: with a zero divisor the remainder is the dividend, and EVC6 counts once. -/
theorem test_remu_zero : (match exec (.remu (.w 3) (.w 1) (.w 2)) (stW 0xFFFFFFFFFFFFFFF9 0) with
    | .next t => t.slot.w[(3 : Fin 24)] == 0xFFFFFFFFFFFFFFF9 && t.core.evc[(6 : Fin 16)] == 1 | _ => false) = true := by decide +kernel
/-- R105. -/
theorem test_addsat : (match exec (.addsat (.w 3) (.w 1) (.w 2)) (stW 0x7FFFFFFFFFFFFFF0 0x20) with
    | .next t => t.slot.w[(3 : Fin 24)] == 0x7FFFFFFFFFFFFFFF && t.core.evc[(14 : Fin 16)] == 1 | _ => false) = true := by decide +kernel

/-- The same step, fetched: add w5, w1, w2. -/
theorem test_step : (match step (stW 5 7) with | .next t => t.slot.w[(5 : Fin 24)] == 12 && t.slot.pc == (stW 5 7).slot.pc + 4 | _ => false) = true := by
  decide +kernel

/-- R147: lane 0 of an E4M3 sum, with and without the cue's saturate bit. -/
def stE4m3 (cue : Option (BitVec 24)) : Entry × State :=
  ({ entry (.padd .e4m3) vadd with cue := cue }, { st with slot := { st.slot with v := (st.slot.v.set 2 0x00007F7E).set 3 0x0000387E } })

theorem test_vpadd_saturates : (match runInstance (stE4m3 (some 0x008000)).1 (stE4m3 (some 0x008000)).2 with
    | .ok (t, _) => (t.slot.v[(1 : Fin 16)]).extractLsb' 0 32 == 0x00007F7E | .error _ => false) = true := by decide +kernel
theorem test_vpadd : (match runInstance (stE4m3 none).1 (stE4m3 none).2 with
    | .ok (t, _) => (t.slot.v[(1 : Fin 16)]).extractLsb' 0 32 == 0x00007F7F | .error _ => false) = true := by decide +kernel

/-- R263: the transposed read of a 3 by 5 matrix at m. -/
def transposed : Layout where
  base := 0x10000
  fmt := .fp32
  e0 := 3
  e1 := 5
  e2 := 1
  e3 := 1
  s0 := 5
  s1 := 1
  s2 := 0
  s3 := 0

theorem test_layout : transposed.element 2 4 0 0 = some (0x10000 + 56, 0) ∧ transposed.element 3 0 0 0 = none := by decide

/-- R332, R333: the two blocks of the first `mxa` of the example, and those of the second. -/
def exampleA (code : Nat) : AStream where
  cue := 0x000355
  codes := List.replicate 32 (some code) ++ [some 0x38] ++ List.replicate 31 (some 0)
  scales := [some 0x93, some 0x7F]
  ts := 0
  k := 64
  rows := 1

def exampleB : Chunk where
  cue := 0x000355
  codes := List.replicate 6144 (some 0x38)
  scales := List.replicate 192 (some 0x7F)
  ts := 0
  n := 1
  k := 64
  bad := []

theorem test_accumulate_first : (accumulated (exampleA 0x38) exampleB 0 0 0).code = 0x4C000000 := by decide +kernel
theorem test_accumulate_second : (accumulated (exampleA 0xB8) exampleB 0 0 0x4C000000).code = 0x3F800000 := by decide +kernel

/-- The words of R334 and R340 as the spec prints them. -/
theorem test_word_cue : decode [0x00035568] = .ok (.cue 0x000355) := rfl
theorem test_word_mxr : decode [0x040600EA, 0, 0] = .ok (.mxr (baseExt (.s (.w 3)) (.s (.w 4)) Spec.zero)) := rfl
theorem test_word_mxz : decode [0x008401EA, 0x00000005, 0] = .ok (.mxz (baseExt (.t 2) Spec.zero (.s (.w 5)))) := rfl
theorem test_word_mxb : decode [0x440002EA, 0x00000045, 0x00004060]
    = .ok (.mxb { baseExt Spec.zero (.t 4) (.t 5) with imm := 0x4060 }) := rfl
theorem test_word_mxo : decode [0x008E04EA, 0x00700000, 1] = .ok (.mxo { baseExt (.t 7) Spec.zero Spec.zero with et := .bf16, imm := 1 }) := rfl
theorem test_word_xcopy : decode [0x058600EE, 0x88000400, 4]
    = .ok (.xcopyFill { baseExt (.t 3) (.s (.w 5)) Spec.zero with oc := .s (.w 8), scp := .clu, rel := true, imm := 4 }) := rfl
theorem test_word_xwait : decode [0x430001EE, 0, 0] = .ok (.xwait (baseExt Spec.zero (.t 3) Spec.zero)) := rfl
theorem test_word_bxf : decode [0x068402EE, 0x00900007, 1]
    = .ok (.bxfScale { baseExt (.t 2) (.s (.w 6)) (.s (.w 7)) with et := .fp32, imm := 1 }) := rfl

end Sys2Proof.Tests.Slice0
end

section
/-! SUPPORT. The parallel layer (R189-R246): own.give, links and their claim, messages, gain updates, key maps,
residuals, spawns, gangs, what travels, and the life of a kernel. -/

open Sys2Proof Sys2Proof.Machine

namespace Sys2Proof.ParallelExecution

/-! ### How the body of an instruction goes on -/

/-- A requirement that is met lets the act go on. -/
@[simp] theorem require_true (cause : BitVec 16) (addr : Word) : require true cause addr = .ok () := rfl

/-- A REL flag that is not set performs no half. -/
theorem State.relFlag_of_clear {s : State} {x : Ext} (h : x.rel = false) : s.relFlag x = .ok s := by
  simp [State.relFlag, h]

/-- An instruction that issues as a state and whose body comes to another one completes there. -/
theorem next_of_issues {s t u : State} {c : Checks} {ops : List SOpd} {p : Pace} {body : State → Act State}
    (h : s.Issues c ops p t) (hb : body t = .ok u) : (.next (s.issue c ops p body) : Result) = .next u.completed :=
  congrArg _ (State.issue_ok h hb)

/-- An instruction that issues as a state and whose body traps takes the trap there. -/
theorem next_of_issues_trap {s t : State} {c : Checks} {ops : List SOpd} {p : Pace} {body : State → Act State} {k : Trap}
    (h : s.Issues c ops p t) (hb : body t = .error (.trap k)) : (.next (s.issue c ops p body) : Result) = .next (t.scalarTrap k) :=
  congrArg _ (State.issue_trap h hb)

/-! ### own.give and the link claim (R212, R246, R260) -/

/-- R260: a tile that may be given, and of which no queued command names the home, passes every check of own.give. -/
theorem ownGiveHandsTheTileOver : Claims.OwnGiveHandsTheTileOver := by
  intro x s t u v tv mv n c h rel tile hs once ra rb target entry owned cluster home free named
  have issues : s.Issues { specChecks [x.oa, x.ob] [] with operand := (specChecks [x.oa, x.ob] []).operand || (tileOf x.od).isNone }
      (scalarsOf [x.oa, x.ob]) .drain t := by simpa [tile] using hs
  have settled : ¬ ((tteSt h = 1 ∨ tteSt h = 3) ∨ tteSt h = 0 ∧ tteFo h = true) := by
    rcases free with h | ⟨h, k⟩ <;> simp [*]
  refine ⟨fun own => next_of_issues issues ?_, fun other take => next_of_issues issues ?_⟩
  · simp [once, ra, rb, target, tile, entry, owned, home, named, settled, own, State.relFlag_of_clear rel]
  · simp [once, ra, rb, target, tile, entry, owned, cluster, home, named, settled, other, take, State.relFlag_of_clear rel]

/-- What checks one link operand is the check of that link. -/
theorem State.linksOk_link (s : State) (g : Dir) : s.linksOk (linksOf [.link g]) = s.linkCheck g := by
  simp only [linksOf, List.filterMap, State.linksOk]
  cases s.linkCheck g <;> rfl

/-- An operand that is no link has no link to check. -/
theorem State.linksOk_of_no_link {s : State} {d : SOpd} (h : ∀ g, d ≠ .link g) : s.linksOk (linksOf [d]) = .ok () := by
  cases d with
  | link g => exact absurd rfl (h g)
  | w n => rfl
  | q n => rfl

/-- R212: off the rectangle a link traps. -/
theorem State.linkCheck_off {s : State} {g : Dir} (h : s.linkNeighbour g = none) : s.linkCheck g = trapOf 0x0806 := by
  simp [State.linkCheck, h]

/-- R212: on the rectangle it traps where the slot does not hold the claim. -/
theorem State.linkCheck_unclaimed {s : State} {g : Dir} (h : s.linkNeighbour g ≠ none) (k : s.core.claim ≠ some s.slotId) :
    s.linkCheck g = trapOf 0x0807 := by
  simp [State.linkCheck, h, k]

/-- R212, R246: lclaim by who holds the claim and by whether its destination is a link; lfree and lpoll. -/
theorem linkClaims : Claims.LinkClaims := by
  intro d s t
  refine ⟨?taken, ?refused, ?link, ?freed, ?polled⟩
  case taken =>
    intro u issues ok mine write
    have may : (t.core.claim.isNone || t.core.claim == some t.slotId) = true := by
      rcases mine with h | h <;> simp [h]
    exact next_of_issues issues (by simp only [ok, may, bit, write, act_bind_ok, reduceIte])
  case refused =>
    intro u j issues held other write plain
    have may : (t.core.claim.isNone || t.core.claim == some t.slotId) = false := by simp [held, other]
    exact next_of_issues issues (by
      simp only [State.linksOk_of_no_link plain, may, bit, write, act_bind_ok, Bool.false_eq_true, reduceIte])
  case link =>
    rintro g issues rfl
    constructor
    · intro off
      exact next_of_issues_trap issues (by simp [State.linksOk_link, State.linkCheck_off off, trapOf])
    · intro on unclaimed
      exact next_of_issues_trap issues (by simp [State.linksOk_link, State.linkCheck_unclaimed on unclaimed, trapOf])
  case freed =>
    intro issues
    refine next_of_issues issues ?_
    by_cases h : t.core.claim = some t.slotId <;> simp [Core.freeClaim, h]
  case polled =>
    intro u issues write
    exact next_of_issues issues (by simp [write])

/-- Settles O24: own.give by its checks, and the link claim by its holder. -/
theorem tilesAndLinksHandedOver : Obligations.TilesAndLinksHandedOver := ⟨ownGiveHandsTheTileOver, linkClaims⟩

/-! ### send, sendh, gainadd, kmap, sendk and defh (R207, R227-R236) -/

/-- R227: an index outside the grid has no core. -/
theorem Kernel.coreOf_outside {k : Kernel} {v : Nat} (h : k.grid ≤ v) : k.coreOf v = none := by
  simp [Kernel.coreOf, h]

/-- R227: a target index outside the grid traps. -/
theorem State.targetIndex_outside {s : State} {k : Kernel} {a : Word} (hk : s.kernel = some k) (h : k.grid ≤ a.toNat) :
    s.targetIndex a = trapOf 0x0800 := by
  simp [State.targetIndex, hk, Kernel.coreOf_outside h]

/-- R230: send and sendh read their operands, the payload only where there is one, find the target, load the payload words
and, while the target has room, put the message in flight with the kernel's tag in its header. -/
theorem sendOp_puts_message {x : Ext} {s t u v w y : State} {a h p : Word} {c : Nat} {ws : List Word} {target : State → Word → Act Nat}
    (issues : s.Issues (specChecks ([x.oa, x.ob] ++ if x.imm.toNat % 8 = 0 then [] else [x.oc]) [])
      (scalarsOf ([x.oa, x.ob] ++ if x.imm.toNat % 8 = 0 then [] else [x.oc])) .drain t)
    (once : t.twiceCheck (linksOf (scalarsOf ([x.oa, x.ob] ++ if x.imm.toNat % 8 = 0 then [] else [x.oc]))) = .ok ())
    (ra : t.readS (opdOf x.oa) = .ok (a, u)) (rb : u.readS (opdOf x.ob) = .ok (h, v))
    (rc : (if x.imm.toNat % 8 = 0 then .ok (0, v) else v.readS (opdOf x.oc)) = .ok (p, w)) (dest : target w a = .ok c)
    (aligned : p.toNat % 8 = 0) (load : w.loadWords p (x.imm.toNat % 8) = .ok (ws, y)) (room : y.hasRoomAt c = true)
    (rel : x.rel = false) :
    s.sendOp x target = (State.advance (y.fly (.message y.slot.par.kid y.coreId y.slot.par.ident c
      { header := setField h 16 10 y.slot.tag.toNat, p := payload ws })) 12).completed := by
  unfold State.sendOp
  refine State.issue_ok issues ?_
  simp only [once, ra, rb, act_bind_ok]
  by_cases empty : x.imm.toNat % 8 = 0
  · rw [if_pos empty] at rc
    cases rc
    rw [empty] at load
    simp only [empty, dest, load, room, State.relFlag_of_clear rel, State.tagged, act_bind_ok, beq_self_eq_true, Bool.true_or,
      require_true, Bool.not_true, Bool.false_eq_true, reduceIte]
  · rw [if_neg empty] at rc
    simp [rc, empty, dest, aligned, load, room, State.relFlag_of_clear rel, State.tagged]

/-- R231: gainadd puts its update in flight where it merges, is counted as dropped, or has room. -/
theorem gainadd_puts_update {x : Ext} {s t u v w : State} {a k d : Word} {c : Nat}
    (issues : s.Issues (specChecks [x.oa, x.ob, x.oc] []) (scalarsOf [x.oa, x.ob, x.oc]) .drain t)
    (once : t.twiceCheck (linksOf (scalarsOf [x.oa, x.ob, x.oc])) = .ok ())
    (ra : t.readS (opdOf x.oa) = .ok (a, u)) (rb : u.readS (opdOf x.ob) = .ok (k, v)) (rc : v.readS (opdOf x.oc) = .ok (d, w))
    (dest : (if x.imm.getLsbD 0 then w.targetOwner a else w.targetIndex a) = .ok c)
    (room : w.merges c (k.toNat % 2 ^ 16) = true ∨ w.kernel.bind (·.dflt) = none ∨ w.hasRoomAt c = true) (rel : x.rel = false) :
    exec (.gainadd x) s = .next (State.advance (w.fly (.gain w.slot.par.kid w.coreId w.slot.par.ident c
      (k.setWidth 16) (d.setWidth 32))) 12).completed := by
  have goes : (w.merges c (k.toNat % 2 ^ 16) || (w.kernel.bind (·.dflt)).isNone || w.hasRoomAt c) = true := by
    rcases room with h | h | h <;> rw [h] <;> simp
  refine next_of_issues issues ?_
  by_cases byOwner : x.imm.getLsbD 0 = true
  · rw [if_pos byOwner] at dest
    simp only [once, ra, rb, rc, if_pos byOwner, dest, goes, State.relFlag_of_clear rel, act_bind_ok, reduceIte]
  · rw [if_neg byOwner] at dest
    simp only [once, ra, rb, rc, if_neg byOwner, dest, goes, State.relFlag_of_clear rel, act_bind_ok, reduceIte]

/-- R229-R231: the three senders. -/
theorem sendsPutTrafficInFlight : Claims.SendsPutTrafficInFlight := by
  intro x s t
  refine ⟨?sends, ?gain, ?outside⟩
  case sends =>
    intro i owner u v w y a h p c ws which issues once ra rb rc dest aligned load room rel
    simp only [List.mem_cons, Prod.mk.injEq, List.not_mem_nil, or_false] at which
    rcases which with ⟨rfl, rfl⟩ | ⟨rfl, rfl⟩
    · exact congrArg _ (sendOp_puts_message issues once ra rb rc dest aligned load room rel)
    · exact congrArg _ (sendOp_puts_message issues once ra rb rc dest aligned load room rel)
  case gain =>
    intro u v w a k d c issues once ra rb rc dest room rel
    exact gainadd_puts_update issues once ra rb rc dest room rel
  case outside =>
    intro a k hk h
    exact State.targetIndex_outside hk h

/-- R207, R234-R236: kmap by its descriptor, sendk by the key map it names, defh by its selector. -/
theorem keyMapsRouteUpdates : Claims.KeyMapsRouteUpdates := by
  intro x s t
  refine ⟨?kmap, ?sendk, ?defh⟩
  case kmap =>
    intro u v a ws k m issues ra aligned load hk valid
    exact next_of_issues issues (by simp [ra, aligned, load, hk, valid])
  case sendk =>
    intro u v key value k m core bin plain rel issues once ra rb hk named route
    have issues' : s.Issues (specChecks ([x.oa, x.ob] ++ if x.imm.getLsbD 4 then [x.oc] else []) [])
        (scalarsOf ([x.oa, x.ob] ++ if x.imm.getLsbD 4 then [x.oc] else [])) .drain t := by
      simpa only [plain, Bool.false_eq_true, reduceIte, List.append_nil] using issues
    refine next_of_issues issues' ?_
    simp only [plain, Bool.false_eq_true, reduceIte, List.append_nil, once, ra, rb, hk, named, route,
      State.relFlag_of_clear rel, act_bind_ok]
    rfl
  case defh =>
    intro issues
    exact next_of_issues issues rfl

/-- Settles O25: the senders, and the key maps. -/
theorem messagesAndUpdatesSent : Obligations.MessagesAndUpdatesSent := ⟨sendsPutTrafficInFlight, keyMapsRouteUpdates⟩

/-! ### resadd, myid and the tree (R199, R232, R240, R242, R243) -/

/-- Counting events leaves the registers of the context alone. -/
@[simp] theorem State.countEvents_slot (s : State) (evs : List Ev) : (s.countEvents evs).slot = s.slot := by
  unfold State.countEvents; split <;> rfl

/-- Counting events leaves the core's record of every kernel alone. -/
@[simp] theorem State.countEvents_of (s : State) (evs : List Ev) (kid : Nat) : (s.countEvents evs).core.of kid = s.core.of kid := by
  unfold State.countEvents; split <;> rfl

/-- The record that a core has of a kernel is that kernel's. -/
theorem Core.of_kid (k : Core) (kid : Nat) : (k.of kid).kid = kid := by
  unfold Core.of
  cases h : k.kernels.find? fun r => r.kid == kid with
  | none => rfl
  | some r => simpa using List.find?_some h

/-- The record that has been put reads back. -/
theorem Core.of_putOf {k : Core} {r : KernelCore} {kid : Nat} (h : r.kid = kid) : (k.putOf r).of kid = r := by
  simp [Core.of, Core.putOf, h]

/-- R95: with no event enabled, none traps. -/
theorem raisedEvents_of_disabled {st : Word} (h : aen st = 0) (evs : List Ev) : raisedEvents st evs = 0 := by
  simp [raisedEvents, h]

/-- R232: with no event enabled, resadd adds its values and goes on. -/
theorem State.residualDone_of_disabled {s : State} (h : aen s.slot.status = 0) (src : TrapSource) (ds : List Nat) :
    s.residualDone src ds = (s.addResidual ds).1.advance 12 := by
  have off : aen ((s.addResidual ds).1.advance 12).slot.status = 0 := by simpa [State.addResidual] using h
  simp only [State.residualDone, raisedEvents_of_disabled off, reduceIte]

/-- A 32-bit lane of a vector register as a field of its bits. -/
theorem laneAt_32 (v : VReg) (i : Nat) : laneAt 32 v i = (v.extractLsb' (32 * i) 32).toNat := by
  simp [laneAt, BitVec.extractLsb'_toNat, Nat.shiftRight_eq_div_pow]

/-- R199, R232: resadd of a scalar, of a vector, and what one step does to the kernel's pair. -/
theorem resaddAccumulates : Claims.ResaddAccumulates := by
  intro x s t
  refine ⟨?scalar, ?vector, ?step⟩
  case scalar =>
    intro u a scalar plain issues ra off
    have issues' : s.Issues { operand := !(if x.oa.isVector then vsrcSpec x.oa else srcSpec x.oa && !x.me), queue := specQueue x.oa }
        (scalarsOf [x.oa] ++ if x.me then [.w x.mask] else []) .drain t := by simpa [scalar, plain] using issues
    refine next_of_issues issues' ?_
    simp [scalar, ra, State.residualDone_of_disabled off]
  case vector =>
    intro u v vector plain issues rv off
    have issues' : s.Issues { operand := !(if x.oa.isVector then vsrcSpec x.oa else srcSpec x.oa && !x.me), queue := specQueue x.oa }
        (scalarsOf [x.oa] ++ if x.me then [.w x.mask] else []) .drain t := by simpa [vector, plain] using issues
    refine next_of_issues issues' ?_
    simp [vector, plain, rv, laneAt_32, State.residualDone_of_disabled off]
  case step =>
    intro d
    simp only [State.addResidual, residualSteps, State.countEvents_of]
    exact Core.of_putOf (Core.of_kid _ _)

/-- R240: the barrier of an identity below 64. -/
theorem barrierId_of_lt {a : Word} (h : a.toNat < 64) : barrierId a = .ok a.toNat := by
  simp [barrierId, h]

/-- R240, R242, R243: myid by its selector, trc.add's first contribution, trc.get by its selector. -/
theorem identityAndTree : Claims.IdentityAndTree := by
  intro x s t u
  refine ⟨?myid, ?index, rfl, ?add, ?last, ?total⟩
  case myid =>
    intro issues write
    exact next_of_issues issues (by simp only [write, act_bind_ok])
  case index => simp [State.identity]
  case add =>
    intro v w a y issues once ra rb low held op
    refine next_of_issues issues ?_
    simp only [once, ra, rb, barrierId_of_lt low, held, op, act_bind_ok]
    simp [treeOp, TreeOp.contribute, TreeOp.combine, TreeOp.start]
  case last =>
    intro v w a k sel issues ra low hk write
    have issues' : s.Issues (specChecks (if x.imm.toNat % 4 = 0 then [x.oa] else []) [x.od])
        (scalarsOf (x.od :: if x.imm.toNat % 4 = 0 then [x.oa] else [])) .free t := by simpa only [sel, reduceIte] using issues
    refine next_of_issues issues' ?_
    simp only [sel, ra, barrierId_of_lt low, hk, write, act_bind_ok, reduceIte]
  case total =>
    intro v k sel issues hk write
    have issues' : s.Issues (specChecks (if x.imm.toNat % 4 = 0 then [x.oa] else []) [x.od])
        (scalarsOf (x.od :: if x.imm.toNat % 4 = 0 then [x.oa] else [])) .free t := by
      simpa only [sel, Nat.one_ne_zero, reduceIte] using issues
    refine next_of_issues issues' ?_
    simp only [sel, Nat.one_ne_zero, barrierId_of_lt (show (0 : Word).toNat < 64 by decide), hk, write, act_bind_ok, reduceIte]

/-- Settles O26: resadd's steps, the identities, and the tree's contributions and results. -/
theorem residualsIdentityAndTree : Obligations.ResidualsIdentityAndTree := ⟨resaddAccumulates, identityAndTree⟩

/-! ### spawn, gang and ungang (R233, R244, R245) -/

/-- What holds an instruction whose links are in order leaves the state that it gives. -/
theorem State.keeping_ok {s t : State} {ops : List SOpd} (h : s.linksOk (linksOf ops) = .ok ()) : s.keeping ops t = t := by
  simp [State.keeping, h]

/-- What holds an instruction of which a link traps leaves that trap (R212). -/
theorem State.keeping_trap {s t : State} {ops : List SOpd} {k : Trap} (h : s.linksOk (linksOf ops) = .error (.trap k)) :
    s.keeping ops t = s.scalarTrap k := by
  simp [State.keeping, h]

/-- An instruction that issues as a state and that its body holds there, once its links have been checked. -/
theorem next_of_issues_hold {s t : State} {c : Checks} {ops : List SOpd} {p : Pace} {body : State → Act State} {f : State → State}
    (h : s.Issues c ops p t) (hb : body t = .error (.hold f)) : (.next (s.issue c ops p body) : Result) = .next (t.keeping ops (f t)) := by
  rw [State.issue_eq h, hb]

/-- An instruction that issues as a state and that its body makes wait, once its links have been checked. -/
theorem next_of_issues_wait {s t u : State} {c : Checks} {ops : List SOpd} {p : Pace} {body : State → Act State}
    (h : s.Issues c ops p t) (hb : body t = .error (.wait u)) : (.next (s.issue c ops p body) : Result) = .next (t.keeping ops u) := by
  rw [State.issue_eq h, hb]

/-- The state with a spawn's offer in flight, its operands unread, and its context waiting for the answer (R233). -/
def offered (y t : State) (c : Nat) (pc : Word) (ws : List Word) : State :=
  let r := (y.unread t).fly (.offer y.slot.par.kid y.coreId y.slot.par.ident c pc ws y.slot.par.header y.slot.par.level)
  r.setPar { r.slot.par with request := .spawn none }

/-- R233: spawn puts its offer in flight once its operands pass their checks; that holds the instruction at its place. -/
theorem spawn_holds {x : Ext} {s t u v w y : State} {a pc p : Word} {c : Nat} {ws : List Word}
    (issues : s.Issues (specChecks [x.oa, x.ob, x.oc] [x.od]) (scalarsOf [x.od, x.oa, x.ob, x.oc]) .drain t)
    (once : t.twiceCheck (linksOf (scalarsOf [x.oa, x.ob, x.oc])) = .ok ())
    (ra : t.readS (opdOf x.oa) = .ok (a, u)) (rb : u.readS (opdOf x.ob) = .ok (pc, v)) (rc : v.readS (opdOf x.oc) = .ok (p, w))
    (fresh : w.slot.par.request = .none) (dest : w.targetIndex a = .ok c) (word : pc.toNat % 4 = 0) (aligned : p.toNat % 8 = 0)
    (load : w.loadWords p 4 = .ok (ws, y)) (rel : x.rel = false) :
    exec (.spawn x) s = .next (t.keeping (scalarsOf [x.od, x.oa, x.ob, x.oc]) (offered y t c pc ws)) :=
  next_of_issues_hold issues (f := fun _ => offered y t c pc ws)
    (by simp [once, ra, rb, rc, fresh, dest, word, aligned, load, State.relFlag_of_clear rel, offered])

/-- R233: spawn with its answer, with a link that traps, and with its offer still to go out. -/
theorem spawnOffersAndAnswers : Claims.SpawnOffersAndAnswers := by
  intro x s t u v w a pc p issues once ra rb rc
  refine ⟨?answered, ?refused, ?offers⟩
  case answered =>
    intro took y answer write
    refine next_of_issues issues ?_
    have write' : w.writeS (opdOf x.od) (bit took) = .ok y := write
    simp [once, ra, rb, rc, answer, write']
  case refused =>
    intro c ws y k link fresh dest word aligned load rel
    rw [spawn_holds issues once ra rb rc fresh dest word aligned load rel, State.keeping_trap link]
  case offers =>
    intro c ws y link fresh dest word aligned load rel
    refine ⟨offered y t c pc ws, ?_, rfl, rfl, rfl⟩
    rw [spawn_holds issues once ra rb rc fresh dest word aligned load rel, State.keeping_ok link]

/-! #### Gangs -/

/-- A context that waits is waiting. -/
@[simp] theorem State.waits_st (s : State) : s.waits.slot.st = .waiting := by
  unfold State.waits; split <;> simp [*]

/-- Waiting leaves the context at its instruction. -/
@[simp] theorem State.waits_pc (s : State) : s.waits.slot.pc = s.slot.pc := by
  unfold State.waits; split <;> rfl

/-- R244, R245: gang by its checks and by whether every core of the block gives a member; ungang. -/
theorem gangsFormAndDisband : Claims.GangsFormAndDisband := by
  intro x s t b k issues hb hk block members
  refine ⟨?refused, ?passed, ?ungang⟩
  case refused =>
    intro new bad
    refine next_of_issues_trap issues ?_
    have fails : (!t.gangWaits (x.imm.toNat % 4) && (!block.all (bandHolds b k.cols) || (t.gangOf t.coreId t.slotId).isSome
        || t.gangClash (x.imm.toNat % 4))) = true := by
      rcases bad with h | h | h <;> rw [new, h] <;> simp
    simp only [hb, hk, block] at fails ⊢
    rw [if_pos fails]
    rfl
  case passed =>
    intro good
    have passes : (!t.gangWaits (x.imm.toNat % 4) && (!block.all (bandHolds b k.cols) || (t.gangOf t.coreId t.slotId).isSome
        || t.gangClash (x.imm.toNat % 4))) = false := by
      rcases good with h | ⟨h, g, c⟩
      · rw [h]; rfl
      · rw [h, g, c]; simp
    constructor
    · intro all
      refine next_of_issues issues ?_
      simp only [hb, hk, block, members] at all passes ⊢
      rw [passes, if_pos all]
      rfl
    · intro few
      refine ⟨t.waits.setPar { t.waits.slot.par with gangWish := some (x.imm.toNat % 4) }, ?_, State.waits_st t, State.waits_pc t, rfl⟩
      refine (next_of_issues_wait issues ?_).trans (congrArg _ (State.keeping_ok rfl))
      simp only [hb, hk, block, members] at few passes ⊢
      rw [passes, if_neg few]
      rfl
  case ungang => exact next_of_issues issues rfl

/-- Settles O27: spawn by the state of its request, gangs by their checks and members. -/
theorem spawnsAndGangs : Obligations.SpawnsAndGangs := ⟨spawnOffersAndAnswers, gangsFormAndDisband⟩

/-! ### What travels arrives (R193, R197, R198, R205, R207, R228, R233, R235) -/

/-- What travels and may arrive does. -/
theorem State.arriving_of_mayArrive {s : State} {i : Nat} (h : s.mayArrive i = true) (r : State) : s.arriving i r = r :=
  if_pos h

/-- A landing leaves every core as it is. -/
@[simp] theorem State.landed_coreAt (s : State) (i c : Nat) : (s.landed i).coreAt c = s.coreAt c := rfl

/-- R197: where the kernel's stop has been, a message is removed. -/
theorem State.messageLands_stopped {s : State} {k : Kernel} {c : Nat} {m : Message} (h : ((s.coreAt c).of k.kid).stopSeen = true) :
    s.messageLands k c m = s.setKernel (k.removes ((k.vcoreOf c).getD 0) [m]) :=
  if_pos h

/-- R197: elsewhere it is present. -/
theorem State.messageLands_present {s : State} {k : Kernel} {c : Nat} {m : Message} (h : ((s.coreAt c).of k.kid).stopSeen = false) :
    s.messageLands k c m = (s.setCore c ((s.coreAt c).insert s.timeBase m)).spilled c (s.coreAt c).stamp :=
  if_neg (by simp [h])

/-- R197: a message of a live kernel that may arrive lands where there is room or where the stop has been. -/
theorem messageArrival_lands {s : State} {i kid c d ident : Nat} {m : Message} {k : Kernel}
    (hf : s.flight[i]? = some (.message kid c ident d m)) (may : s.mayArrive i = true) (hk : s.live kid = some k)
    (room : ((s.coreAt d).hasRoom || ((s.coreAt d).of kid).stopSeen) = true) :
    exec (.messageArrival i) s = .next ((s.landed i).messageLands k d m) := by
  change execMessageArrival i s = _
  simp only [execMessageArrival, hf, State.arriving_of_mayArrive may, hk, room, reduceIte]

/-- R197, R228: a message by whether the kernel's stop has been at its core. -/
theorem messageArrives : Claims.MessageArrives := by
  intro s i kid c d ident m k hf may hk
  refine ⟨?present, ?removed, ?onChip⟩
  case present =>
    intro running room
    rw [messageArrival_lands hf may hk (by rw [room]; rfl), State.messageLands_present (s := s.landed i) running]
    rfl
  case removed =>
    rintro stopped rfl
    rw [messageArrival_lands hf may hk (by rw [stopped, Bool.or_true]), State.messageLands_stopped (s := s.landed i) stopped]
  case onChip =>
    intro t n h
    simp only [State.spilled, h]

/-- R193: an insertion appends its message to the heap. -/
theorem insertionStamps : Claims.InsertionStamps := by
  intro k now m
  refine ⟨rfl, fun n h => List.mem_append_left _ h, _, List.mem_append_right _ (List.mem_singleton_self _), rfl, rfl, rfl⟩

/-- R198: a gain update for a live kernel that may arrive lands where its core has room. -/
theorem gainUpdateArrival_lands {s : State} {i kid c ident d : Nat} {key : BitVec 16} {delta : BitVec 32} {k : Kernel}
    (hf : s.flight[i]? = some (.gain kid c ident d key delta)) (may : s.mayArrive i = true) (hk : s.live kid = some k)
    (room : (s.coreAt d).hasRoom = true) :
    exec (.gainUpdateArrival i) s = .next ((s.landed i).gainLands k d key.toNat delta.toNat) := by
  change execGainUpdateArrival i s = _
  simp [execGainUpdateArrival, hf, State.arriving_of_mayArrive may, hk, room]

/-- R205: an offer of a kernel that has ended is declined. -/
theorem spawnOffer_declined {s : State} {i kid c ident d level : Nat} {pc h : Word} {args : List Word}
    (hf : s.flight[i]? = some (.offer kid c ident d pc args h level)) (may : s.mayArrive i = true) (ended : s.live kid = none) :
    exec (.spawnOfferArrival i) s = .next ((s.landed i).fly (.answer kid d c ident false)) := by
  change execSpawnOfferArrival i s = _
  simp [execSpawnOfferArrival, hf, State.arriving_of_mayArrive may, ended]

/-- R205, R233: the only IDLE slot of a running kernel takes an offer. -/
theorem spawnOffer_taken {s : State} {i kid c ident d level n : Nat} {pc h : Word} {args : List Word}
    (hf : s.flight[i]? = some (.offer kid c ident d pc args h level)) (may : s.mayArrive i = true)
    (runs : (s.live kid).isSome = true) (running : ((s.coreAt d).of kid).stopSeen = false) (only : s.idleSlots kid d = [n]) :
    exec (.spawnOfferArrival i) s
      = .next (((s.landed i).drew.startIn d n pc args h level).fly (.answer kid d c ident true)) := by
  change execSpawnOfferArrival i s = _
  simp [execSpawnOfferArrival, hf, State.arriving_of_mayArrive may, runs, running, only, Nat.mod_one]

/-- R233: an answer reaches the context that waits for it. -/
theorem spawnAnswer_reaches {s : State} {i kid d c ident : Nat} {took : Bool}
    (hf : s.flight[i]? = some (.answer kid d c ident took)) (may : s.mayArrive i = true) :
    exec (.spawnAnswer i) s = .next ((s.landed i).mapContext c ident (Slot.answered took)) := by
  change execSpawnAnswer i s = _
  simp only [execSpawnAnswer, hf, State.arriving_of_mayArrive may]

/-- R207, R235: a key update outside the register images is applied, and its bytes leave its barrier. -/
theorem keyUpdateArrival_applies {s : State} {i kid c d bin boff : Nat} {op : BinOp} {v : Word} {bar : Option Nat} {k : Kernel}
    (hf : s.flight[i]? = some (.keyUpdate kid c d bin boff op v bar)) (may : s.mayArrive i = true)
    (hk : (s.landed i).live kid = some k) (outside : (s.landed i).inImage d (boff + 8 * bin) op.width = false) :
    exec (.keyUpdateArrival i) s = .next (((s.landed i).applyUpdate kid d (boff + 8 * bin) op v bar).updateLeaves kid bar) := by
  change execKeyUpdateArrival i s = _
  simp only [execKeyUpdateArrival, hf, State.arriving_of_mayArrive may, hk, outside, Bool.false_eq_true, reduceIte]

/-- R198, R205, R207, R233, R235: the four other kinds of traffic. -/
theorem otherTrafficArrives : Claims.OtherTrafficArrives := by
  intro s i
  refine ⟨?gain, ?offer, ?answer, ?keyUpdate⟩
  case gain =>
    intro kid c ident d key delta k hf may hk room
    exact gainUpdateArrival_lands hf may hk room
  case offer =>
    intro kid c ident d level pc h args hf may
    exact ⟨spawnOffer_declined hf may, fun n runs running only => spawnOffer_taken hf may runs running only⟩
  case answer =>
    intro kid d c ident took hf may
    exact spawnAnswer_reaches hf may
  case keyUpdate =>
    intro kid c d bin boff op v bar k hf may hk outside
    exact keyUpdateArrival_applies hf may hk outside

/-- R207: with no stored error, an update writes its bin's new value over the bytes of the old one. -/
theorem State.applyUpdate_mem {s : State} (clean : s.flips = []) (kid core off : Nat) (op : BinOp) (v : Word) (bar : Option Nat) :
    (s.applyUpdate kid core off op v bar).mem = Memory.setSome s.mem (spKey core off)
      ((toBytes op.width (op.apply (wordOf (Memory.bytes s.mem (spKey core off) op.width)) v).toNat).map some) := by
  have read := State.checkRead_none clean (.accumulate kid core) (spKey core off) op.width
  have write := State.checkWrite_none (s := (s.loadHome (.accumulate kid core) (spKey core off) op.width).2) clean
    (.accumulate kid core) (spKey core off) op.width
  simp only [State.applyUpdate, read, write]
  exact (State.inject_alike _ _ _).1

/-- R207: a key update changes its bin and no other byte. -/
theorem keyUpdateChangesItsBin : Claims.KeyUpdateChangesItsBin := by
  intro s kid core off op v bar canonical clean
  rw [State.applyUpdate_mem clean]
  constructor
  · have back := Memory.bytes_setSome canonical (spKey core off)
      (toBytes op.width (op.apply (wordOf (Memory.bytes s.mem (spKey core off) op.width)) v).toNat)
    rwa [toBytes_length] at back
  · intro k outside
    exact Memory.get_setSome_outside canonical _ _ _ (by simpa using outside)

/-- Settles O38: messages, insertions, the other traffic, and what a key update changes. -/
theorem trafficArrives : Obligations.TrafficArrives :=
  ⟨messageArrives, insertionStamps, otherTrafficArrives, keyUpdateChangesItsBin⟩

/-! ### Heap order (R193) -/

/-- The kind of an exact value in heap order: NaN below everything, then −∞, the numbers, +∞. -/
def kindOf : FVal → Nat
  | .nan => 0
  | .inf true => 1
  | .fin _ _ _ => 2
  | .inf false => 3

/-- A number in units of the smallest FP32 number, in which every FP32 number is a whole one. -/
def unitsOf : FVal → Int
  | .fin n m e => FVal.signedInt n (m * 2 ^ (e - fp32.unit).toNat)
  | _ => 0

/-- Only NaN is of NaN's kind. -/
theorem kindOf_eq_zero (a : FVal) : kindOf a = 0 ↔ a.isNan = true := by
  cases a with
  | nan => simp [kindOf, FVal.isNan]
  | inf n => cases n <;> simp [kindOf, FVal.isNan]
  | fin n m e => simp [kindOf, FVal.isNan]

/-- Whether an exact value is a whole number of FP32's smallest units, if it is a number. -/
def WholeUnits : FVal → Prop
  | .fin _ _ e => fp32.unit ≤ e
  | _ => True

/-- R82: every FP32 code stands for a whole number of units. -/
theorem fp32_decode_wholeUnits (c : Nat) : WholeUnits (fp32.decode c) := by
  unfold FpFmt.decode
  dsimp only
  split
  · split <;> trivial
  · split
    · trivial
    · split
      · exact Int.le_refl _
      · exact Int.le_add_of_nonneg_right (Int.natCast_nonneg _)

/-- A magnitude at an exponent, taken at a lower one, is that many times as large. -/
theorem signedInt_shift (n : Bool) (m i j : Nat) :
    FVal.signedInt n (m * 2 ^ (i + j)) = FVal.signedInt n (m * 2 ^ i) * 2 ^ j := by
  have product : ((m * 2 ^ (i + j) : Nat) : Int) = ((m * 2 ^ i : Nat) : Int) * 2 ^ j := by
    rw [Nat.pow_add, ← Nat.mul_assoc, Int.natCast_mul _ (2 ^ j), Int.natCast_pow]
    rfl
  cases n with
  | false => exact product
  | true => exact (congrArg Neg.neg product).trans (Int.neg_mul _ _).symm

/-- On values that are not NaN, less-than compares the kinds, and numbers by their units. -/
theorem lt_iff_kind_or_units {a b : FVal} (ha : a.isNan = false) (hb : b.isNan = false) (wa : WholeUnits a) (wb : WholeUnits b) :
    a.lt b = true ↔ kindOf a < kindOf b ∨ kindOf a = kindOf b ∧ unitsOf a < unitsOf b := by
  cases a with
  | nan => exact nomatch ha
  | inf n =>
    cases b with
    | nan => exact nomatch hb
    | inf k => cases n <;> cases k <;> simp [FVal.lt, kindOf, unitsOf]
    | fin k m e => cases n <;> simp [FVal.lt, kindOf]
  | fin n m e =>
    cases b with
    | nan => exact nomatch hb
    | inf k => cases k <;> simp [FVal.lt, kindOf]
    | fin k m' e' =>
      have lowA : fp32.unit ≤ e := wa
      have lowB : fp32.unit ≤ e' := wb
      have shiftA : (e - fp32.unit).toNat = (e - min e e').toNat + (min e e' - fp32.unit).toNat := by omega
      have shiftB : (e' - fp32.unit).toNat = (e' - min e e').toNat + (min e e' - fp32.unit).toNat := by omega
      have scale : (0 : Int) < 2 ^ (min e e' - fp32.unit).toNat := Int.pow_pos (by decide)
      simp only [FVal.lt, kindOf, unitsOf, shiftA, shiftB, signedInt_shift, Int.mul_lt_mul_right scale, decide_eq_true_eq,
        Nat.lt_irrefl, false_or, true_and]

/-- The exact value of a message's gain. -/
def gainOf (m : HeapMsg) : FVal := fp32.decode (hdrGain m.msg.header)

/-- Less-than of the gains of two messages that are not NaN. -/
theorem gainOf_lt_iff {a b : HeapMsg} (ha : (gainOf a).isNan = false) (hb : (gainOf b).isNan = false) :
    (gainOf a).lt (gainOf b) = true ↔ kindOf (gainOf a) < kindOf (gainOf b)
      ∨ kindOf (gainOf a) = kindOf (gainOf b) ∧ unitsOf (gainOf a) < unitsOf (gainOf b) :=
  lt_iff_kind_or_units ha hb (fp32_decode_wholeUnits _) (fp32_decode_wholeUnits _)

/-- Where a message is ahead of another: its gain is of a higher kind or has more units, or as many and its stamp is earlier. -/
def Ahead (a b : HeapMsg) : Prop :=
  kindOf (gainOf b) < kindOf (gainOf a) ∨ kindOf (gainOf a) = kindOf (gainOf b) ∧
    (unitsOf (gainOf b) < unitsOf (gainOf a) ∨ unitsOf (gainOf a) = unitsOf (gainOf b) ∧ a.stamp < b.stamp)

/-- NaN has no units. -/
theorem unitsOf_nan {a : FVal} (h : a.isNan = true) : unitsOf a = 0 := by
  cases a with
  | nan => rfl
  | inf n => rfl
  | fin n m e => exact nomatch h

/-- R193: heap order is lexicographic in kind, units and stamp. -/
theorem before_iff_ahead (a b : HeapMsg) : a.before b = true ↔ Ahead a b := by
  change (if (gainOf a).isNan then (gainOf b).isNan && decide (a.stamp < b.stamp) else if (gainOf b).isNan then true
    else if (gainOf b).lt (gainOf a) then true else if (gainOf a).lt (gainOf b) then false else decide (a.stamp < b.stamp)) = true ↔ _
  have kindA := kindOf_eq_zero (gainOf a)
  have kindB := kindOf_eq_zero (gainOf b)
  unfold Ahead
  cases ha : (gainOf a).isNan with
  | true =>
    have zeroA := kindA.2 ha
    cases hb : (gainOf b).isNan with
    | true =>
      simp only [reduceIte, Bool.true_and, decide_eq_true_eq, zeroA, kindB.2 hb, unitsOf_nan ha, unitsOf_nan hb, Nat.lt_irrefl,
        Int.lt_irrefl, false_or, true_and]
    | false =>
      have posB : kindOf (gainOf b) ≠ 0 := fun h => nomatch hb.symm.trans (kindB.1 h)
      simp only [reduceIte, Bool.false_and, Bool.false_eq_true, false_iff]
      omega
  | false =>
    have posA : kindOf (gainOf a) ≠ 0 := fun h => nomatch ha.symm.trans (kindA.1 h)
    cases hb : (gainOf b).isNan with
    | true =>
      have zeroB := kindB.2 hb
      simp only [Bool.false_eq_true, reduceIte, true_iff]
      omega
    | false =>
      have less := gainOf_lt_iff ha hb
      have more := gainOf_lt_iff hb ha
      simp only [Bool.false_eq_true, reduceIte, less, more]
      split
      · simp only [true_iff]; omega
      · split
        · simp only [Bool.false_eq_true, false_iff]; omega
        · simp only [decide_eq_true_eq]; omega

/-- Only of no messages is none first. -/
theorem firstOf_eq_none {ms : List HeapMsg} (h : firstOf ms = none) : ms = [] := by
  cases ms with
  | nil => rfl
  | cons q qs =>
    unfold firstOf at h
    split at h
    · split at h <;> exact nomatch h
    · exact nomatch h

/-- What is ahead of another is not behind it. -/
theorem Ahead.not_ahead {a b : HeapMsg} (h : Ahead a b) : ¬ Ahead b a := by
  unfold Ahead at *; omega

/-- Where neither step of a chain is ahead, its end is not ahead of its start. -/
theorem not_ahead_trans {a b c : HeapMsg} (h : ¬ Ahead b a) (k : ¬ Ahead c b) : ¬ Ahead c a := by
  unfold Ahead at *; omega

/-- R193: the message that is first is one of the messages, and no other is ahead of it. -/
theorem firstOf_foremost {ms : List HeapMsg} {m : HeapMsg} (h : firstOf ms = some m) : m ∈ ms ∧ ∀ n ∈ ms, ¬ Ahead n m := by
  induction ms generalizing m with
  | nil => exact nomatch h
  | cons q qs ih =>
    simp only [firstOf] at h
    cases rest : firstOf qs with
    | none =>
      simp only [rest, Option.some.injEq] at h
      rw [firstOf_eq_none rest, ← h]
      exact ⟨List.mem_cons_self, List.forall_mem_cons.2 ⟨fun k => k.not_ahead k, nofun⟩⟩
    | some n =>
      obtain ⟨mem, foremost⟩ := ih rest
      simp only [rest] at h
      by_cases first : n.before q = true
      · rw [if_pos first, Option.some.injEq] at h
        have lead := (before_iff_ahead n q).1 first
        rw [← h]
        exact ⟨List.mem_cons_of_mem _ mem, List.forall_mem_cons.2 ⟨lead.not_ahead, foremost⟩⟩
      · rw [if_neg first, Option.some.injEq] at h
        have lead : ¬ Ahead n q := fun k => first ((before_iff_ahead n q).2 k)
        rw [← h]
        exact ⟨List.mem_cons_self,
          List.forall_mem_cons.2 ⟨fun k => k.not_ahead k, fun r hr => not_ahead_trans lead (foremost r hr)⟩⟩

/-- R82: a code of an IEEE-style format is a NaN's where its exponent is the largest and its fraction is not 0. -/
theorem FpFmt.decode_isNan_iff {f : FpFmt} (ieee : f.top = .ieee) (c : Nat) : (f.decode c).isNan = true ↔
    c % (2 * f.signBit) % f.signBit / 2 ^ f.mb = 2 ^ f.eb - 1 ∧ c % (2 * f.signBit) % f.signBit % 2 ^ f.mb ≠ 0 := by
  simp only [FpFmt.decode, ieee]
  generalize c % (2 * f.signBit) % f.signBit / 2 ^ f.mb = exponent
  generalize c % (2 * f.signBit) % f.signBit % 2 ^ f.mb = fraction
  by_cases top : exponent = 2 ^ f.eb - 1
  · by_cases zero : fraction = 0 <;> simp [top, zero, FVal.isNan]
  · simp only [top, true_and, false_and, reduceIte, reduceCtorEq, iff_false]
    by_cases low : exponent = 0 <;> simp [low, FVal.isNan]

/-- R82: an FP32 code is a NaN's where its magnitude lies above infinity's. -/
theorem fp32_decode_isNan (c : Nat) : (fp32.decode c).isNan = isNan32 c := by
  have above : (c % (2 * 2 ^ 31) % 2 ^ 31 / 2 ^ 23 = 2 ^ 8 - 1 ∧ c % (2 * 2 ^ 31) % 2 ^ 31 % 2 ^ 23 ≠ 0)
      ↔ c % 0x80000000 > 0x7F800000 := by omega
  rw [Bool.eq_iff_iff, isNan32, decide_eq_true_iff, ← above]
  exact FpFmt.decode_isNan_iff (f := fp32) rfl c

/-- R193: what it means that no message is ahead of the one that is first. -/
theorem firstIsFirst : Claims.FirstIsFirst := by
  intro ms m h
  obtain ⟨mem, foremost⟩ := firstOf_foremost h
  have kindM := kindOf_eq_zero (gainOf m)
  simp only [← fp32_decode_isNan]
  refine ⟨mem, ?larger, ?nans, ?equal⟩
  case larger =>
    intro n hn number
    have behind := foremost n hn
    have kindN : kindOf (gainOf n) ≠ 0 := fun h => nomatch number.symm.trans ((kindOf_eq_zero _).1 h)
    unfold Ahead at behind
    have number' : (gainOf m).isNan = false := Bool.not_eq_true _ ▸ fun nan => by
      have := kindM.2 nan
      omega
    refine ⟨number', Bool.not_eq_true _ ▸ fun lt => ?_⟩
    have := (gainOf_lt_iff number' number).1 lt
    omega
  case nans =>
    intro n hn nan nan'
    have behind := foremost n hn
    have kindN := (kindOf_eq_zero (gainOf n)).2 nan
    have := kindM.2 nan'
    unfold Ahead at behind
    have unitsN : unitsOf (gainOf n) = 0 := unitsOf_nan nan
    have unitsM : unitsOf (gainOf m) = 0 := unitsOf_nan nan'
    omega
  case equal =>
    intro n hn number number' notLess
    have behind := foremost n hn
    have notLower : ¬ ((gainOf n).lt (gainOf m) = true) := fun lt => nomatch notLess.symm.trans lt
    rw [gainOf_lt_iff number number'] at notLower
    unfold Ahead at behind
    omega

/-! ### Pops, rounds, ends and faults (R189-R202, R218, R222, R225, R365) -/

/-- R192: the heap pops its first message for an IDLE slot of a running kernel; its handler starts, or, where that is zero, the
message is counted. -/
theorem heapPop_first {s r : State} {c n : Nat} {k : Kernel} {m : HeapMsg} (idle : (s.slotAt c n).st = .idle)
    (hk : s.live (s.slotAt c n).par.kid = some k) (running : ((s.coreAt c).of k.kid).stopSeen = false) (ready : s.popWaits k = false)
    (first : firstOf ((s.coreAt c).ofTag k.tag) = some m) (read : s.regionRead c m = (true, r)) :
    let t := r.setCore c { s.coreAt c with heap := (s.coreAt c).heap.filter fun q => q.stamp != m.stamp }
    exec (.heapPop c n) s = .next (if k.handlers.getD (hdrHid m.msg.header) 0 = 0 then t.setKernel k.drops
      else t.startIn c n (k.handlers.getD (hdrHid m.msg.header) 0) m.msg.p.toList m.msg.header (k.levelOf s.timeBase m)) := by
  change execHeapPop c n s = _
  simp [execHeapPop, idle, hk, running, ready, first, read]

/-- R189: what starting an activation does to the registers of its slot. -/
theorem Slot.activate_registers (x : Slot) (pc h : Word) (args : List Word) (l a y : Nat) :
    (x.activate pc args h l a y).pc = pc ∧ up (x.activate pc args h l a y).status = false
      ∧ (x.activate pc args h l a y).st = .active ∧ (x.activate pc args h l a y).v = x.v
      ∧ ∀ i : Fin 24, (x.activate pc args h l a y).w[i] = if 1 ≤ i.val ∧ i.val ≤ 7 then args.getD (i.val - 1) 0 else x.w[i] := by
  refine ⟨rfl, ?_, rfl, rfl, fun i => ?_⟩
  · simp [Slot.activate, up, setBit]
  · simp [Slot.activate]

/-- R189, R192, R222: a pop by whether the message's handler is zero, and the registers of its activation. -/
theorem heapPops : Claims.HeapPops := by
  intro s r c n k m idle hk running ready first read
  have pop := heapPop_first idle hk running ready first read
  refine ⟨fun handled => ?_, fun zero => ?_, fun x pc h args l a y _ => Slot.activate_registers x pc h args l a y⟩
  · exact pop.trans (by rw [if_neg handled]; rfl)
  · exact pop.trans (by rw [if_pos zero])

/-- R200, R395: a round that is due and whose reports pass is gathered; where the total meets tolerance the kernel stops and a
stop goes to each of its cores. -/
theorem roundGather_due {s : State} {kid : Nat} {k : Kernel} (hk : s.live kid = some k) (due : s.roundDue k = true)
    (way : s.gatherUse k = .passes) :
    let t := (s.marked k).setKernel { s.gathered k with stopping := (s.gathered k).meets, tolMet := (s.gathered k).meets }
    exec (.roundGather kid) s
      = .next (if (s.gathered k).meets then { t with flight := t.flight ++ k.cores.map fun c => .stop kid c } else t) := by
  change execRoundGather kid s = _
  simp only [execRoundGather, hk, due, State.gathering, way, Bool.not_true, Bool.false_eq_true, reduceIte]

/-- R201: a stop that may arrive reaches its core. -/
theorem stopArrival_reaches {s : State} {kid c i : Nat} {k : Kernel} (hk : s.live kid = some k)
    (hf : s.flight.findIdx? (· == .stop kid c) = some i) (may : s.mayArrive i = true) :
    exec (.stopArrival kid c) s = .next ((s.landed i).stopsOn k c) := by
  change execStopArrival kid c s = _
  simp only [execStopArrival, hf, hk, State.arriving_of_mayArrive may]

/-- R201, R202: the final gather of a kernel that may end, once nothing makes it wait, ends the kernel. -/
theorem finalGather_ends {s : State} {kid : Nat} {k : Kernel} (hk : s.live kid = some k) (may : s.mayEnd k = true)
    (queue : s.queueClear k.desc = true) (free : s.reportFree [kid] = true) (way : s.gatherUse k = .passes) :
    exec (.finalGather kid) s = .next (s.finish (s.gathered k) (if k.tolMet then 1 else 2) 0) := by
  change execFinalGather kid s = _
  simp only [execFinalGather, hk, may, queue, free, State.gathering, way, Bool.and_self, reduceIte]

/-- R395: while a link on a report's way retrains, no gather happens. -/
theorem gathering_waits {s : State} {k : Kernel} (way : s.gatherUse k = .waits) (r : State) : s.gathering k r = s := by
  simp only [State.gathering, way]

/-- R200, R201: rounds, stops and ends. -/
theorem roundsAndEnds : Claims.RoundsAndEnds := by
  intro s kid k hk
  refine ⟨?goesOn, ?stops, ?stop, ?ends, ?waits, rfl⟩
  case goesOn =>
    intro due way short
    rw [roundGather_due hk due way, short]
    rfl
  case stops =>
    intro due way met
    rw [roundGather_due hk due way, met]
    rfl
  case stop =>
    intro c i hf may
    exact stopArrival_reaches hk hf may
  case ends =>
    intro may queue free way
    exact finalGather_ends hk may queue free way
  case waits =>
    intro way
    constructor
    · change execRoundGather kid s = _
      simp only [execRoundGather, hk, gathering_waits way, ite_self]
    · change execFinalGather kid s = _
      simp only [execFinalGather, hk, gathering_waits way, ite_self]

/-- R196, R222: moves to the overflow region and back, and aging. -/
theorem heapUpkeep : Claims.HeapUpkeep := by
  intro s c stamp out
  refine ⟨?moves, ?absent, ?ages⟩
  case moves =>
    intro m r hm access room
    change execOverflowRegionMove c stamp out s = _
    simp only [execOverflowRegionMove, hm, access, if_pos room, reduceIte]
    rfl
  case absent =>
    intro hm
    change execOverflowRegionMove c stamp out s = _
    simp only [execOverflowRegionMove, hm]
  case ages =>
    change execAgingLimit c stamp s = _
    simp only [execAgingLimit, Bool.and_eq_true, decide_eq_true_eq]

/-- R225, R365: a cycle of the wait-for graph, and a stop report in its turn. -/
theorem kernelsFault : Claims.KernelsFault := by
  constructor
  · intro s k ks cycle free
    change execDependencyDeadlock (k :: ks) s = _
    simp only [execDependencyDeadlock, List.headD_cons, cycle, free, Bool.and_self, reduceIte]
  · intro s i r report first free
    change execKernelFault (r.kid / 1024 % 4) i s = _
    simp only [execKernelFault, report, first, free, decide_true, Bool.and_self, reduceIte]

/-- Settles O39: pops in heap order, rounds and ends, the heap's upkeep, and faults. -/
theorem kernelsRunAndEnd : Obligations.KernelsRunAndEnd := ⟨heapPops, firstIsFirst, roundsAndEnds, heapUpkeep, kernelsFault⟩

end Sys2Proof.ParallelExecution
end

section
/-! SUPPORT. The barriers of the sum-combining tree (R237-R239): bar.arr, bar.wait and bar.add. -/

open Sys2Proof Sys2Proof.Machine

namespace Sys2Proof.ParallelExecution

/-! ### Barriers (R237-R239) -/

/-- A requirement that is not met traps. -/
@[simp] theorem require_false (cause : BitVec 16) (addr : Word) : require false cause addr = trapAt cause addr := rfl

/-- R237: from 64 on, an identity names no barrier. -/
theorem barrierId_of_ge {a : Word} (h : 64 ≤ a.toNat) : barrierId a = trapOf 0x0802 := by
  simp [barrierId, Nat.not_lt.2 h]

/-- R239: a result that the count can hold becomes the pending count. -/
theorem Barrier.plus_in_range {b : Barrier} {d : Int} (low : 0 ≤ (b.pending : Int) + d) (high : (b.pending : Int) + d ≤ 2 ^ 56 - 1) :
    b.plus d = some { b with pending := ((b.pending : Int) + d).toNat } := by
  simp only [Barrier.plus, Bool.or_eq_true, decide_eq_true_eq]
  exact if_neg (by omega)

/-- R239: a result below 0 is refused. -/
theorem Barrier.plus_below_zero {b : Barrier} {d : Int} (h : (b.pending : Int) + d < 0) : b.plus d = none := by
  simp [Barrier.plus, h]

/-- R239: a generation that lies from 1 to 2^31 behind the count has completed. -/
theorem Barrier.passed_of_behind {b : Barrier} {g : BitVec 32} (low : 1 ≤ (b.done - g).toNat) (high : (b.done - g).toNat ≤ 2 ^ 31) :
    b.passed g = true := by
  simp only [Barrier.passed, low, high, decide_true, Bool.and_self]

/-- R237, R238: an identity or a member count out of range stops a bar.arr before any of its effects. -/
theorem barArr_traps {x : Ext} {s t u v : State} {a m : Word} (plain : x.imm.getLsbD 0 = false)
    (issues : s.Issues (specChecks [x.oa, x.ob] [x.od]) (scalarsOf [x.od, x.oa, x.ob]) .drain t)
    (once : t.twiceCheck (linksOf (scalarsOf [x.oa, x.ob])) = .ok ())
    (ra : t.readS (opdOf x.oa) = .ok (a, u)) (rb : u.readS (opdOf x.ob) = .ok (m, v)) (fresh : v.slot.par.request = .none)
    (bad : a.toNat ≥ 64 ∨ m.toNat = 0 ∨ m.toNat > 2 ^ 24) : exec (.barArr x) s = .next (t.scalarTrap { cause := 0x0802 }) := by
  change execBarArr x s = _
  simp only [execBarArr, plain, Bool.false_eq_true, reduceIte, List.append_nil]
  refine next_of_issues_trap issues ?_
  simp only [once, ra, rb, fresh, act_bind_ok]
  by_cases low : a.toNat < 64
  · have members : (decide (1 ≤ m.toNat) && decide (m.toNat ≤ 2 ^ 24)) = false := by
      rw [Bool.and_eq_false_iff, decide_eq_false_iff_not, decide_eq_false_iff_not]
      omega
    simp only [barrierId_of_lt low, members, require_false, trapAt, act_bind_ok, act_bind_error]
  · simp only [barrierId_of_ge (Nat.not_lt.1 low), trapOf, act_bind_error]

/-- R238: a bar.arr that passes its checks and that the open generation takes gives that generation's number and joins it. -/
theorem barArr_joins_open {x : Ext} {s t u v w : State} {a m : Word} {k : Kernel} (plain : x.imm.getLsbD 0 = false)
    (issues : s.Issues (specChecks [x.oa, x.ob] [x.od]) (scalarsOf [x.od, x.oa, x.ob]) .drain t)
    (once : t.twiceCheck (linksOf (scalarsOf [x.oa, x.ob])) = .ok ())
    (ra : t.readS (opdOf x.oa) = .ok (a, u)) (rb : u.readS (opdOf x.ob) = .ok (m, v)) (fresh : v.slot.par.request = .none)
    (low : a.toNat < 64) (nonzero : 1 ≤ m.toNat) (few : m.toNat ≤ 2 ^ 24) (links : v.linksOk (linksOf (scalarsOf [x.od])) = .ok ())
    (rel : x.rel = false) (hk : v.kernel = some k)
    (takes : (k.barrier a.toNat).decide (v.arrival a.toNat m.toNat none (x.imm.getLsbD 1)) = .open_)
    (write : v.writeS (opdOf x.od) ((k.barrier a.toNat).done.setWidth 64) = .ok w) :
    exec (.barArr x) s =
      .next ((w.join k a.toNat (v.arrival a.toNat m.toNat none (x.imm.getLsbD 1)) false).advance 12).completed := by
  change execBarArr x s = _
  simp only [execBarArr, plain, Bool.false_eq_true, reduceIte, List.append_nil]
  refine next_of_issues issues ?_
  simp only [once, ra, rb, fresh, barrierId_of_lt low, nonzero, few, links, State.relFlag_of_clear rel, hk, takes, write,
    decide_true, Bool.and_self, Bool.not_false, Bool.true_or, require_true, act_bind_ok]

/-- R239: a bar.wait for a generation that has completed gives 1 and passes its yield point. -/
theorem barWait_passes {x : Ext} {s t u v w : State} {a g : Word} {k : Kernel}
    (issues : s.Issues (specChecks [x.oa, x.ob] [x.od]) (scalarsOf [x.od, x.oa, x.ob]) .drain t)
    (once : t.twiceCheck (linksOf (scalarsOf [x.oa, x.ob])) = .ok ())
    (ra : t.readS (opdOf x.oa) = .ok (a, u)) (rb : u.readS (opdOf x.ob) = .ok (g, v)) (low : a.toNat < 64)
    (hk : v.kernel = some k) (acq : x.acq = false) (passed : (k.barrier a.toNat).passed (g.setWidth 32) = true)
    (write : (v.passes v.self a.toNat (g.toNat % 2 ^ 32)).writeS (opdOf x.od) 1 = .ok w) :
    exec (.barWait x) s = .next (w.yieldPoint.advance 12).completed := by
  refine next_of_issues issues ?_
  simp only [once, ra, rb, barrierId_of_lt low, hk, acq, passed, write, Bool.false_eq_true, reduceIte, act_bind_ok]

/-- R239: a bar.add changes its barrier's pending count, after which the tree acts; a result out of range traps and changes nothing. -/
theorem barAdd_adds_or_traps {x : Ext} {s t u v : State} {a d : Word} {k : Kernel}
    (issues : s.Issues (specChecks [x.oa, x.ob] []) (scalarsOf [x.oa, x.ob]) .drain t)
    (once : t.twiceCheck (linksOf (scalarsOf [x.oa, x.ob])) = .ok ())
    (ra : t.readS (opdOf x.oa) = .ok (a, u)) (rb : u.readS (opdOf x.ob) = .ok (d, v)) (low : a.toNat < 64)
    (rel : x.rel = false) (hk : v.kernel = some k) :
    (∀ b, (k.barrier a.toNat).plus d.toInt = some b →
      exec (.barAdd x) s = .next (State.advance ((v.setKernel (k.setBarrier a.toNat b)).treeActs k.kid a.toNat) 12).completed)
    ∧ ((k.barrier a.toNat).plus d.toInt = none →
      exec (.barAdd x) s = .next ((v.unread t).trapNow { cause := 0x0804 }).completed) := by
  constructor
  · intro b sum
    refine next_of_issues issues ?_
    simp only [once, ra, rb, barrierId_of_lt low, State.relFlag_of_clear rel, hk, sum, act_bind_ok]
  · intro sum
    refine next_of_issues issues ?_
    simp only [once, ra, rb, barrierId_of_lt low, State.relFlag_of_clear rel, hk, sum, act_bind_ok]

/-- Settles O22: bar.arr by its checks and the generation that takes it, bar.wait of a completed generation, bar.add by its
result. -/
theorem barriersCountArrivals : Obligations.BarriersCountArrivals := by
  intro x s t
  refine ⟨?arr, ?wait, ?add⟩
  case arr =>
    intro u v w a m k plain issues once ra rb fresh
    exact ⟨barArr_traps plain issues once ra rb fresh, barArr_joins_open plain issues once ra rb fresh⟩
  case wait =>
    intro u v w a g k issues once ra rb low hk acq behind near write
    exact barWait_passes issues once ra rb low hk acq (Barrier.passed_of_behind behind near) write
  case add =>
    intro u v a d k issues once ra rb low rel hk
    obtain ⟨adds, traps⟩ := barAdd_adds_or_traps issues once ra rb low rel hk
    exact ⟨fun nonneg fits => adds _ (Barrier.plus_in_range nonneg fits), fun below => traps (Barrier.plus_below_zero below)⟩

end Sys2Proof.ParallelExecution
end

section
/-! SUPPORT. Phase consistency (R267-R286): the curtains, and the succession of kernels. -/

open Sys2Proof Sys2Proof.Machine Sys2Proof.ParallelExecution

namespace Sys2Proof.PhaseConsistency

/-! ### What a half leaves alone (R270, R284, R308) -/

/-- Two states with the same bytes, the same focused context and the same core: a half leaves these alone. -/
structure SameContext (s t : State) : Prop where
  mem : t.mem = s.mem
  slot : t.slot = s.slot
  core : t.core = s.core

theorem SameContext.refl (s : State) : SameContext s s := ⟨rfl, rfl, rfl⟩

theorem SameContext.trans {s t u : State} (h : SameContext s t) (k : SameContext t u) : SameContext s u :=
  ⟨k.mem.trans h.mem, k.slot.trans h.slot, k.core.trans h.core⟩

/-- Changes that each leave the context alone leave it alone one after another. -/
theorem SameContext.foldl {α : Type} {f : State → α → State} (h : ∀ s a, SameContext s (f s a)) (l : List α) (s : State) :
    SameContext s (l.foldl f s) := by
  induction l generalizing s with
  | nil => exact SameContext.refl s
  | cons a l ih => exact (h s a).trans (ih (f s a))

/-- R308: a change of a tensor that meets its trigger begins, or is made at once, outside memory. -/
theorem sameContext_triggered (s : State) (d : Tensor) : SameContext s (s.triggered d) := by
  unfold State.triggered
  split
  · exact ⟨rfl, rfl, rfl⟩
  · split <;> exact ⟨rfl, rfl, rfl⟩

/-- R308: a half as the trigger of every change that waits for it. -/
theorem sameContext_trigger (s : State) (c : Agent) (asid : BitVec 12) (x : Scope) : SameContext s (s.trigger c asid x) :=
  SameContext.foldl (fun s d => by
    dsimp only
    split
    · exact sameContext_triggered s d
    · exact SameContext.refl s) s.tensors s

/-- R270: a release half takes its place in curtain order, and is a trigger. -/
theorem sameContext_released (s : State) (c : Agent) (asid : BitVec 12) (x : Scope) :
    SameContext s ((s.release c x).trigger c asid x) :=
  SameContext.trans (t := s.release c x) ⟨rfl, rfl, rfl⟩ (sameContext_trigger _ c asid x)

/-- R270: an acquire half changes what counts for the context, and is a trigger. -/
theorem sameContext_acquireHalf (s : State) (x : Scope) : SameContext s (s.acquireHalf x) :=
  SameContext.trans (t := s.acquire s.self x) ⟨rfl, rfl, rfl⟩ (sameContext_trigger _ _ _ x)

/-! ### Release halves and tensor operations (R273, R296) -/

/-- R296: with no accepted operation of the context outstanding, a release half is performed. -/
theorem State.releaseHalf_performed {s : State} (h : s.elementsPending = false) (x : Scope) :
    s.releaseHalf x = .ok ((s.release s.self x).trigger s.self (s.core.aspace.extractLsb' 52 12) x) := by
  simp only [State.releaseHalf, h, Bool.false_eq_true, reduceIte]

/-- R296: an outstanding operation, one that only reads too (log 7), holds it, and operations go on in the same step (the schedule
of log 1). -/
theorem State.releaseHalf_held {s : State} (h : s.elementsPending = true) (x : Scope) :
    s.releaseHalf x = .error (.hold (·.tensorProgress)) := by
  simp only [State.releaseHalf, h, reduceIte]

/-! ### The completion of an instruction -/

/-- Going on to the next instruction leaves the queues alone. -/
@[simp] theorem Slot.advance_queues (x : Slot) (n : Nat) :
    (x.advance n).q0 = x.q0 ∧ (x.advance n).q1 = x.q1 ∧ (x.advance n).q2 = x.q2 ∧ (x.advance n).q3 = x.q3 := by
  unfold Slot.advance Slot.settlePops
  split <;> exact ⟨rfl, rfl, rfl, rfl⟩

/-- Completing leaves the queues alone. -/
@[simp] theorem Slot.completed_queues (x : Slot) (c : Nat) :
    (x.completed c).q0 = x.q0 ∧ (x.completed c).q1 = x.q1 ∧ (x.completed c).q2 = x.q2 ∧ (x.completed c).q3 = x.q3 := by
  unfold Slot.completed
  split <;> exact ⟨rfl, rfl, rfl, rfl⟩

/-- An instruction of n bytes that changed nothing of its context and core: the PC has moved on. -/
structure OnlyGoesOn (n : Nat) (s u : State) : Prop where
  mem : u.mem = s.mem
  core : u.core = s.core
  w : u.slot.w = s.slot.w
  v : u.slot.v = s.slot.v
  status : u.slot.status = s.slot.status
  q0 : u.slot.q0 = s.slot.q0
  q1 : u.slot.q1 = s.slot.q1
  q2 : u.slot.q2 = s.slot.q2
  q3 : u.slot.q3 = s.slot.q3
  pc : u.slot.pc = s.slot.pc + BitVec.ofNat 64 n

/-- What leaves the context alone and then goes on only goes on. -/
theorem SameContext.goesOn {s t : State} (h : SameContext s t) (n : Nat) : OnlyGoesOn n s (t.advance n).completed := by
  constructor <;> simp [State.advance, State.completed, Slot.unrefused, h.mem, h.core, h.slot]

/-! ### The curtains (R284) -/

/-- R284: a curtain that completes changes no register, queue, counter or byte of memory. -/
theorem curtain_changes_nothing {i : Instr} {s t y : State} (same : SameContext t y)
    (done : exec i s = .next (y.advance 12).completed) :
    ∃ u, exec i s = .next u ∧ u.mem = t.mem ∧ u.slot.w = t.slot.w
      ∧ u.slot.v = t.slot.v ∧ u.slot.status = t.slot.status ∧ u.slot.q0 = t.slot.q0 ∧ u.slot.q1 = t.slot.q1 ∧ u.slot.q2 = t.slot.q2
      ∧ u.slot.q3 = t.slot.q3 ∧ u.core = t.core ∧ u.slot.pc = t.slot.pc + 12 :=
  have on := same.goesOn 12
  ⟨_, done, on.mem, on.w, on.v, on.status, on.q0, on.q1, on.q2, on.q3, on.core, on.pc⟩

/-- R284: the three curtains by their halves, the two with a release half while a tensor operation is outstanding, and what those
that complete leave alone. -/
theorem curtainsPerformTheirHalves : Claims.CurtainsPerformTheirHalves := by
  intro x s t issues asid rel
  have releases : t.elementsPending = false → exec (.curtnRel x) s = .next (rel.advance 12).completed
      ∧ exec (.curtn x) s = .next ((rel.acquireHalf x.scp).advance 12).completed := fun free =>
    ⟨next_of_issues issues (by rw [State.releaseHalf_performed free]; rfl),
      next_of_issues issues (by rw [State.releaseHalf_performed free]; rfl)⟩
  have acquires : exec (.curtnAcq x) s = .next ((t.acquireHalf x.scp).advance 12).completed := next_of_issues issues rfl
  have released : SameContext t rel := sameContext_released t t.self asid x.scp
  refine ⟨releases, ?held, acquires, ?same⟩
  case held =>
    intro pending
    constructor <;>
      exact (next_of_issues_hold issues (by rw [State.releaseHalf_held pending]; rfl)).trans (congrArg _ (State.keeping_ok rfl))
  case same =>
    rintro i (rfl | ⟨free, which⟩)
    · exact curtain_changes_nothing (sameContext_acquireHalf t x.scp) acquires
    · obtain ⟨relDone, bothDone⟩ := releases free
      simp only [List.mem_cons, List.not_mem_nil, or_false] at which
      rcases which with rfl | rfl
      · exact curtain_changes_nothing (released.trans (sameContext_acquireHalf rel x.scp)) bothDone
      · exact curtain_changes_nothing released relDone

/-! ### succgo and predwait (R285, R286) -/

/-- The first entry of a key in a keyed list that has been given a value for it. -/
theorem find?_assocSet {α : Type} (k : Nat) (v : α) (l : List (Nat × α)) :
    (assocSet k v l).find? (fun p => p.1 == k) = some (k, v) := by
  induction l with
  | nil => simp [assocSet]
  | cons p l ih =>
    obtain ⟨j, u⟩ := p
    unfold assocSet
    by_cases here : j = k
    · simp [here]
    · by_cases before : k < j
      · simp [here, before]
      · simp [here, before, ih]

/-- A kernel that has been replaced reads as its replacement. -/
@[simp] theorem State.kernelAt_setKernel (s : State) (k : Kernel) : (s.setKernel k).kernelAt k.kid = some k := by
  simp [State.kernelAt, find?_assocSet]

/-- A kernel that has been changed under its number reads as changed. -/
theorem State.kernelAt_mapKernel {s : State} {kid : Nat} {k : Kernel} {f : Kernel → Kernel} (hk : s.kernelAt kid = some k)
    (number : (f k).kid = kid) : (s.mapKernel kid f).kernelAt kid = some (f k) := by
  simp only [State.mapKernel, hk]
  rw [← number, State.kernelAt_setKernel]

/-- Changing a kernel leaves the context alone. -/
theorem sameContext_mapKernel (s : State) (kid : Nat) (f : Kernel → Kernel) : SameContext s (s.mapKernel kid f) := by
  unfold State.mapKernel
  split <;> exact ⟨rfl, rfl, rfl⟩

/-- R285: succgo adds one to its kernel's count and goes on. -/
theorem succgo_counts {x : Ext} {s t : State} (issues : s.Issues {} [] .drain t) :
    ∃ u, exec (.succgo x) s = .next u ∧ u.slot.pc = t.slot.pc + 12 ∧ u.slot.w = t.slot.w ∧ u.mem = t.mem
      ∧ ∀ k, t.kernelAt t.slot.par.kid = some k → k.kid = t.slot.par.kid →
        ∃ r, u.kernelAt t.slot.par.kid = some r ∧ r.succgo = min (k.succgo + 1) (2 ^ 32 - 1) := by
  have on := (sameContext_mapKernel t t.slot.par.kid Kernel.succgoes).goesOn 12
  exact ⟨_, next_of_issues issues rfl, on.pc, on.w, on.mem,
    fun k hk number => ⟨k.succgoes, State.kernelAt_mapKernel hk number, rfl⟩⟩

/-- R286: a predecessor that has ended gives 1 where its end and the own kernel's state are good, and 0 where not. -/
theorem State.predOutcome_ended {s : State} {k q : Kernel} {p e : Nat} (hk : s.kernel = some k) (hp : k.pred = some p)
    (hq : s.kernelAt p = some q) (he : q.ended = some e) :
    s.predOutcome = some (if (e = 1 ∨ e = 2) ∧ k.runs = true then 1 else 0) := by
  simp [State.predOutcome, hk, hp, hq, he]

/-- A write that an agent has seen counts for it. -/
theorem counts_see (s : State) (c : Agent) (r : WriteRec) : s.counts c (r.see c) = true := by
  have seen : (r.see c).seen.contains c = true := by
    unfold WriteRec.see
    split
    · assumption
    · simp
  simp only [State.counts, seen, Bool.or_true, Bool.true_or]

/-- Seeing a write changes neither who made it nor where. -/
@[simp] theorem WriteRec.see_origin (r : WriteRec) (c : Agent) : (r.see c).by_ = r.by_ ∧ (r.see c).addr = r.addr := by
  unfold WriteRec.see
  split <;> exact ⟨rfl, rfl⟩

/-- R286: what is published from a kernel counts where its home lies in the domain. -/
theorem counts_of_acquireFrom {s : State} {c : Agent} {y : Scope} {kid : Nat} {r : WriteRec} (mem : r ∈ (s.acquireFrom c y kid).hist)
    (by_ : r.by_.kid = kid) (home : homeInDomain r.addr c y = true) : (s.acquireFrom c y kid).counts c r = true := by
  obtain ⟨q, -, rfl⟩ := List.mem_map.1 mem
  by_cases due : (q.by_.kid == kid && homeInDomain q.addr c y) = true
  · rw [if_pos due]
    exact counts_see _ c q
  · rw [if_neg due] at by_ home
    exact absurd (by simp [by_, home]) due

/-- R285, R286: the count of succgo, and predwait by its outcome. -/
theorem successionOfKernels : Claims.SuccessionOfKernels := by
  intro x s t
  refine ⟨succgo_counts, fun issues => ⟨?goesOn, ?alone, ?ended, ?published⟩⟩
  case goesOn =>
    intro r u outcome write
    exact next_of_issues issues (by simp only [outcome, write, act_bind_ok])
  case alone =>
    intro k hk noPred
    simp only [State.predOutcome, hk, noPred]
  case ended =>
    intro k p q e hk hp hq he
    exact State.predOutcome_ended hk hp hq he
  case published =>
    intro k p r hk hp mem by_ home
    have one : t.acquirePred x.scp 1 = (t.acquireHalf x.scp).acquireFrom t.self x.scp p := by
      simp [State.acquirePred, hk, hp]
    rw [one] at mem ⊢
    exact counts_of_acquireFrom mem by_ home

/-- Settles O23: the curtains by their halves, and the succession of kernels. -/
theorem curtainsAndSuccession : Obligations.CurtainsAndSuccession := ⟨curtainsPerformTheirHalves, successionOfKernels⟩

end Sys2Proof.PhaseConsistency
end

section
/-! SUPPORT. Tensor handles (R294-R318), first what performing tset and tfill writes. -/

open Sys2Proof Sys2Proof.Machine Sys2Proof.ParallelExecution

namespace Sys2Proof.TensorHandles

/-! ### The bytes of elements (R296) -/

/-- R296: the elements of a tensor stand one after another, four bytes each. -/
theorem Tensor.key_eq (d : Tensor) (n : Nat) : d.key n = d.key 0 + 4 * n := by
  simp [Tensor.key, tensorKey]

/-- Writing an element writes its four bytes; an injection that it meets changes no byte. -/
@[simp] theorem State.writeElem_mem (s : State) (c : Agent) (d : Tensor) (n code : Nat) :
    (s.writeElem c d n code).mem = Memory.setSome s.mem (d.key n) ((toBytes 4 code).map some) :=
  (State.inject_alike _ _ _).1

/-- Writing an element keeps the canonical form of memory. -/
theorem State.writeElem_wf {s : State} (wf : Memory.wf s.mem = true) (c : Agent) (d : Tensor) (n code : Nat) :
    Memory.wf (s.writeElem c d n code).mem = true := by
  rw [State.writeElem_mem]
  exact Memory.wf_setSome wf _ _

/-- An element that has been written reads as its code. -/
theorem State.writeElem_bytes {s : State} (wf : Memory.wf s.mem = true) (c : Agent) (d : Tensor) (n code : Nat) :
    Memory.bytes (s.writeElem c d n code).mem (d.key n) 4 = toBytes 4 code := by
  have back := Memory.bytes_setSome wf (d.key n) (toBytes 4 code)
  rw [toBytes_length] at back
  rw [State.writeElem_mem, back]

/-- Writing an element changes no byte outside it. -/
theorem State.writeElem_outside {s : State} (wf : Memory.wf s.mem = true) (c : Agent) (d : Tensor) (n code : Nat) {k : Nat}
    (out : k < d.key n ∨ d.key n + 4 ≤ k) : Memory.get (s.writeElem c d n code).mem k = Memory.get s.mem k := by
  rw [State.writeElem_mem, Memory.get_setSome_outside wf _ _ _ (by simpa using out)]

/-- Writing elements from one on changes no byte outside them. -/
theorem State.writeElems_outside {s : State} (wf : Memory.wf s.mem = true) (c : Agent) (d : Tensor) (n : Nat) (codes : List Nat) {k : Nat}
    (out : k < d.key n ∨ d.key (n + codes.length) ≤ k) : Memory.get (s.writeElems c d n codes).mem k = Memory.get s.mem k := by
  induction codes generalizing s n with
  | nil => rfl
  | cons code codes ih =>
    rw [List.length_cons, Tensor.key_eq d (n + _), Tensor.key_eq d n] at out
    have rest : k < d.key (n + 1) ∨ d.key (n + 1 + codes.length) ≤ k := by
      rw [Tensor.key_eq d (n + 1), Tensor.key_eq d (n + 1 + _)]
      omega
    have this : k < d.key n ∨ d.key n + 4 ≤ k := by
      rw [Tensor.key_eq d n]
      omega
    rw [State.writeElems, ih (State.writeElem_wf wf ..) _ rest, State.writeElem_outside wf _ _ _ _ this]

/-- Elements that have been written each read as their code. -/
theorem State.writeElems_bytes {s : State} (wf : Memory.wf s.mem = true) (c : Agent) (d : Tensor) (n : Nat) (codes : List Nat) (i : Nat)
    (hi : i < codes.length) : Memory.bytes (s.writeElems c d n codes).mem (d.key (n + i)) 4 = toBytes 4 codes[i] := by
  induction codes generalizing s n i with
  | nil => exact absurd hi (Nat.not_lt_zero i)
  | cons code codes ih =>
    rw [State.writeElems]
    have wf' := State.writeElem_wf wf c d n code
    cases i with
    | zero =>
      refine (Memory.bytes_congr fun k _ below => State.writeElems_outside wf' c d (n + 1) codes (.inl ?_)).trans
        (State.writeElem_bytes wf c d n code)
      rw [Tensor.key_eq d (n + 0)] at below
      rw [Tensor.key_eq d (n + 1)]
      omega
    | succ i =>
      have there := ih wf' (n + 1) i (Nat.lt_of_succ_lt_succ hi)
      rwa [show n + 1 + i = n + (i + 1) by omega] at there

/-- A tensor that is about to be written whole keeps its bytes until then. -/
@[simp] theorem State.renewed_mem (s : State) (d : Tensor) : (s.renewed d).mem = s.mem := by
  unfold State.renewed
  split <;> rfl

/-! ### Performing an operation (R306, R313) -/

/-- A machine check of an operation is logged and reported, and changes no byte of memory (R367). -/
@[simp] theorem State.reportCheck_mem (s : State) (kid core : Nat) (k : Trap) : (s.reportCheck kid core k).mem = s.mem := by
  have logged : (s.logCheck k core 15 0).2.mem = s.mem := by
    unfold State.logCheck
    split
    · rfl
    · split <;> rfl
  exact logged

/-- Performing an operation, by what its traffic and its reads come to; an equation of functions, which is checked without running
them. -/
theorem State.perform_def : @State.perform = fun s o d a refused =>
    match (do s.homesReach o d a; s.scanFor o d a) with
    | .ok t => t.effectOf o d a refused
    | .error (.trap k) => .ok (s.reportCheck o.from_.kid o.core k)
    | .error _ => .error (.stall none) := by
  delta State.perform
  funext s o d a refused
  generalize (do s.homesReach o d a; s.scanFor o d a) = r
  rcases r with (_ | _ | _ | _) | _ <;> rfl

section
variable {s u : State} {o : TOp} {d a : Tensor} {refused : Bool} {k : Trap}

/-- R395: an operation that no route takes to its sources ends with a machine check (log 49). -/
theorem State.perform_unreached (route : s.homesReach o d a = .error (.trap k)) :
    s.perform o d a refused = .ok (s.reportCheck o.from_.kid o.core k) := by
  simp only [State.perform_def, route, act_bind_error]

/-- R301, R367: an operation whose reads meet an uncorrectable error ends with a machine check before it writes (log 35). -/
theorem State.perform_checked (route : s.homesReach o d a = .ok ()) (scan : s.scanFor o d a = .error (.trap k)) :
    s.perform o d a refused = .ok (s.reportCheck o.from_.kid o.core k) := by
  simp only [State.perform_def, route, scan, act_bind_ok]

/-- R306: any other operation has its effect. -/
theorem State.perform_effect (route : s.homesReach o d a = .ok ()) (scan : s.scanFor o d a = .ok u) :
    s.perform o d a refused = u.effectOf o d a refused := by
  simp only [State.perform_def, route, scan, act_bind_ok]

end

/-- R313: tset sets its one element, of the bytes that its scan has left as they were. -/
theorem State.perform_set {s t u : State} {o : TOp} {d a : Tensor} {refused : Bool} {n code : Nat} (work : o.work = .set n code)
    (route : s.homesReach o d a = .ok ()) (scan : s.scanFor o d a = .ok u) (done : s.perform o d a refused = .ok t) :
    u.mem = s.mem ∧ t = u.writeElem o.from_.by_ d n code := by
  rw [State.perform_effect route scan] at done
  simp only [State.effectOf, work] at done
  simp only [State.scanFor, work] at scan
  exact ⟨(State.checkWrite_alike scan).1, (Except.ok.inj done).symm⟩

/-- R313: tfill, which reads none of its elements, sets each of them. -/
theorem State.perform_fill {s t u : State} {o : TOp} {d a : Tensor} {refused : Bool} {code : Nat} (work : o.work = .fill code)
    (route : s.homesReach o d a = .ok ()) (scan : s.scanFor o d a = .ok u) (done : s.perform o d a refused = .ok t) :
    u = s ∧ t = (s.renewed d).writeElems o.from_.by_ d 0 (List.replicate d.size code) := by
  rw [State.perform_effect route scan] at done
  simp only [State.effectOf, work] at done
  simp only [State.scanFor, work, TOp.readsWhole] at scan
  cases scan
  exact ⟨rfl, (Except.ok.inj done).symm⟩

/-- Settles O31: an operation without a route (R395, log 49), tset, an operation that meets an uncorrectable error (R266, R301, R367,
log 35), and tfill. -/
theorem tensorWritesReachTheirElements : Obligations.TensorWritesReachTheirElements := by
  intro s t u o d a code refused _ wf
  refine ⟨fun k => State.perform_unreached, ?set, ?checked, ?fill⟩
  case set =>
    intro n work route scan done
    obtain ⟨same, rfl⟩ := State.perform_set work route scan done
    rw [← same] at wf ⊢
    exact ⟨State.writeElem_bytes wf .., fun k => State.writeElem_outside wf o.from_.by_ d n code⟩
  case checked =>
    intro k route scan
    exact ⟨State.perform_checked route scan, State.reportCheck_mem ..⟩
  case fill =>
    intro work route scan done
    obtain ⟨-, rfl⟩ := State.perform_fill work route scan done
    have wf' : Memory.wf (s.renewed d).mem = true := (State.renewed_mem s d).symm ▸ wf
    constructor
    · intro n hn
      have there := State.writeElems_bytes wf' o.from_.by_ d 0 (List.replicate d.size code) n (by simpa using hn)
      rwa [Nat.zero_add, List.getElem_replicate] at there
    · intro k out
      rw [State.writeElems_outside wf' _ _ _ _ (by rwa [Nat.zero_add, List.length_replicate]), State.renewed_mem]

end Sys2Proof.TensorHandles
end

section
/-! SUPPORT. Tensor handles (R294-R318), the TENS instructions: handles made and freed, elements, and the operations accepted. -/

open Sys2Proof Sys2Proof.Machine Sys2Proof.ParallelExecution

namespace Sys2Proof.TensorHandles

/-! ### How a TENS instruction goes on (R305, R310) -/

/-- R310: an operand that a form does not use is w0, which reads as 0: what follows its reading follows where it is left out, too. -/
theorem after_reading {β : Type} {s : State} {p : Spec} {r : Word × State} (read : s.readS (opdOf p) = .ok r) (f : Word × State → Act β) :
    (if (p != Spec.zero) = true then s.readS (opdOf p) >>= f else f (0, s)) = f r := by
  by_cases zero : p = Spec.zero
  · subst zero
    cases read
    rfl
  · rw [if_pos (by simpa using zero), read, act_bind_ok]

/-- A TENS instruction does what its body does to the operands that it has read. -/
theorem tens_of_body {i : Instr} {x : Ext} {srcs : List Spec} {od : Option Spec} {n : Nat}
    {body : Word → Word → Word → State → Act State} {does : Word → Word → Word → State → State → Prop}
    (runs : ∀ s, exec i s = .next (s.tens x srcs od n body)) (oa : x.oa ∈ srcs)
    (comes : ∀ a b c s t, does a b c s t → body a b c s = .ok t) : Shape.Tens i x srcs od n does := by
  intro s t u v w y a b c issues once ra rb rc done
  rw [runs]
  have source : srcs.contains x.oa = true := by simpa using oa
  refine next_of_issues issues ?_
  simp only [once, source, ra, act_bind_ok, reduceIte]
  exact (after_reading rb _).trans ((after_reading rc _).trans (by simp only [comes a b c w y done, act_bind_ok]))

/-- The same for one whose register destination names the destination's handle (R310). -/
theorem tens2_of_body {i : Instr} {x : Ext} {srcs : List Spec} {body : Word → Word → Word → State → Act State}
    {does : Word → Word → Word → State → State → Prop} (runs : ∀ s, exec i s = .next (s.tens2 x srcs body)) (oa : x.oa ∈ srcs)
    (comes : ∀ a b c s t, does a b c s t → ∃ h, Shape.named x s h ∧ body h a b s = .ok t) : Shape.Tens i x srcs (some x.od) 12 does := by
  refine tens_of_body runs oa fun a b c s t done => ?_
  obtain ⟨h, ⟨n, od, rfl⟩, came⟩ := comes a b c s t done
  simp only [od, came]

/-! ### tnew and its handle (R294, R299, R311) -/

/-- R299, R311: tnew by whether there is storage, which is a free value (log 9). -/
theorem tensorCreated : Claims.TensorCreated := by
  intro x
  refine tens_of_body (fun _ => rfl) (by simp) ?_
  rintro a b c s t ⟨wide, aligned, ws, u, load, good, made⟩
  have scope : (x.scp != .core) = true := by simpa using wide
  have word : (a.toNat % 64 == 0) = true := by simpa using aligned
  simp only [scope, word, load, good, require_true, act_bind_ok]
  rcases made with ⟨none_, write⟩ | ⟨storage, write⟩
  · simp only [none_, write, Bool.not_false, reduceIte]
  · simp only [storage, write, Bool.not_true, Bool.false_eq_true, reduceIte]

/-- R294: a handle has not been issued where it is not 0 and no tensor has had it. -/
theorem State.issued_eq_false {s : State} {h : Word} : s.issued h = false ↔ h ≠ 0 ∧ h ∉ s.handles := by
  simp [State.issued]

/-- R294: of two more numbers than there are handles, one is not 0 and was never issued: they are as many different handles. -/
theorem State.exists_unissued {s : State} (few : s.handles.length < 2 ^ 63) :
    ∃ n ∈ List.range (s.handles.length + 2), s.issued (BitVec.ofNat 64 n) = false := by
  refine Classical.byContradiction fun none_ => ?_
  have taken : (List.range (s.handles.length + 2)).map (BitVec.ofNat 64) ⊆ 0 :: s.handles := by
    intro h mem
    obtain ⟨n, hn, rfl⟩ := List.mem_map.1 mem
    cases free : s.issued (BitVec.ofNat 64 n) with
    | false => exact absurd ⟨n, hn, free⟩ none_
    | true => simpa only [State.issued, Bool.or_eq_true, beq_iff_eq, List.contains_iff_mem, List.mem_cons] using free
  have different : ((List.range (s.handles.length + 2)).map (BitVec.ofNat 64)).Nodup := by
    refine List.pairwise_map.2 (List.pairwise_lt_range.imp_of_mem fun {m n} hm hn below same => ?_)
    rw [List.mem_range] at hm hn
    have numbers := congrArg BitVec.toNat same
    rw [BitVec.toNat_ofNat, BitVec.toNat_ofNat, Nat.mod_eq_of_lt (by omega), Nat.mod_eq_of_lt (by omega)] at numbers
    omega
  have count := different.length_le_of_subset taken
  rw [List.length_map, List.length_range, List.length_cons] at count
  omega

/-- R294: the handle that tnew takes was never issued. -/
theorem State.freshHandle_unissued {s : State} (few : s.handles.length < 2 ^ 63) : s.issued s.freshHandle = false := by
  unfold State.freshHandle
  dsimp only
  split
  case isTrue free => simpa using free
  case isFalse =>
    obtain ⟨n, mem, free⟩ := State.exists_unissued few
    cases found : (List.range (s.handles.length + 2)).find? fun n => !s.issued (BitVec.ofNat 64 n) with
    | none => exact absurd (List.find?_eq_none.1 found n mem) (by simp [free])
    | some m => simpa using List.find?_some found

/-- R294: a new handle, which no address space of the blade has had (log 9), and that a tensor's handle counts as issued. -/
theorem handlesAreNew : Claims.HandlesAreNew := by
  intro s few
  obtain ⟨nonzero, new⟩ := State.issued_eq_false.1 (State.freshHandle_unissued few)
  exact ⟨nonzero, new, fun d => ⟨rfl, rfl⟩⟩

/-! ### tfree and twiden (R312) -/

/-- R312: tfree, and twiden by whether it asks for bits that are not in effect. -/
theorem tensorFreedAndWidened : Claims.TensorFreedAndWidened := by
  intro x
  constructor
  · refine tens_of_body (fun _ => rfl) (by simp) ?_
    rintro a b c s t ⟨d, named, rfl⟩
    simp only [named, act_bind_ok]
  · refine tens_of_body (fun _ => rfl) (by simp) ?_
    rintro a b c s t ⟨d, named, low, good, made⟩
    have upper : (field b 16 48 == 0) = true := by
      simp only [field, beq_iff_eq]
      omega
    simp only [named, upper, good, Bool.and_self, require_true, act_bind_ok]
    rcases made with ⟨asked, rfl⟩ | ⟨new, rfl⟩
    · rw [if_pos asked]
    · rw [if_neg new]

/-! ### The elements (R313) -/

/-- R313: a fill is accepted with a code that fits, where the repertoire has the bit. -/
theorem State.fillTensor_accepts {s : State} {a v : Word} {d : Tensor} (named : s.named a = .ok d) (fits : v.toNat < 2 ^ elemWidth d.fmt)
    (bit : d.rep.getLsbD 2 = true) : s.fillTensor a v = .ok (s.accept a 0 (.fill v.toNat)) := by
  have code : codeFits d.fmt v = true := by simpa [codeFits] using fits
  simp only [State.fillTensor, named, code, needBit, bit, require_true, act_bind_ok, reduceIte]

/-- R313: tget by what its scan and its read come to, the fills, and tset. -/
theorem tensorElements : Claims.TensorElements := by
  intro x lit
  refine ⟨?get, ?fill, ?literal, ?set⟩
  case get =>
    refine tens_of_body (fun _ => rfl) (by simp) ?_
    rintro a b c s t ⟨d, n, named, element, bit, settled, free, r, scan, write⟩
    have now : (decide (d.st = .reforming) || s.tops.any fun o => o.from_.ident == s.slot.par.ident && o.names a) = false := by
      rw [free, Bool.or_false, decide_eq_false settled]
    simp only [named, element, needBit, bit, now, scan, write, act_bind_ok, Bool.false_eq_true, reduceIte]
  case fill =>
    refine tens_of_body (fun _ => rfl) (by simp) ?_
    rintro a b c s t ⟨d, named, fits, bit, rfl⟩
    exact State.fillTensor_accepts named fits bit
  case literal =>
    refine tens_of_body (fun _ => rfl) (by simp) ?_
    rintro a b c s t ⟨d, named, fits, bit, rfl⟩
    exact State.fillTensor_accepts named fits bit
  case set =>
    intro s t u v w y a b c e d n issues once ra rb rc re named element fits bit
    have code : codeFits d.fmt e = true := by simpa [codeFits] using fits
    exact next_of_issues issues (by
      simp only [once, ra, rb, rc, re, named, element, code, needBit, bit, require_true, act_bind_ok, reduceIte])

/-! ### tsync and tinfo (R317, R318) -/

/-- R300: the fields of a form's word, from its parts. -/
theorem formWord_fields (wide : Bool) (n : Nat) :
    let f := (formWord wide n).toNat
    f / 4 % 64 = 0 ∧ f / 2 ^ 12 % 16 = 0 ∧ f / 2 ^ 32 = 0 ∧ f % 4 ≤ 2 ∧ (2 ≤ f / 2 ^ 10 % 4 → wide = true)
      ∧ 1 ≤ f / 2 ^ 16 ∧ (f / 2 ^ 10 % 4 = 0 → f / 2 ^ 16 = 1) := by
  have place : n / 2 ^ 10 % (if wide then 4 else 2) < 4 ∧ (wide = false → n / 2 ^ 10 % (if wide then 4 else 2) < 2) := by
    cases wide <;> simp <;> omega
  simp only [formWord, BitVec.toNat_ofNat]
  generalize n / 2 ^ 10 % (if wide then 4 else 2) = p at place
  obtain ⟨four, two⟩ := place
  have parts : 1 ≤ (if p = 0 then 1 else max 1 (n / 2 ^ 16 % 2 ^ 16)) ∧ (if p = 0 then 1 else max 1 (n / 2 ^ 16 % 2 ^ 16)) < 2 ^ 16
      ∧ (p = 0 → (if p = 0 then 1 else max 1 (n / 2 ^ 16 % 2 ^ 16)) = 1) := by
    split <;> omega
  generalize (if p = 0 then 1 else max 1 (n / 2 ^ 16 % 2 ^ 16)) = q at parts
  obtain ⟨one, below, single⟩ := parts
  have low : n / 2 ^ 8 % 4 < 4 ∧ n % 4 % 3 < 3 := by omega
  generalize n / 2 ^ 8 % 4 = r at low
  generalize n % 4 % 3 = l at low
  obtain ⟨hr, hl⟩ := low
  rw [Nat.mod_eq_of_lt (by omega : q * 2 ^ 16 + p * 2 ^ 10 + r * 2 ^ 8 + l < 2 ^ 64)]
  have top : (q * 2 ^ 16 + p * 2 ^ 10 + r * 2 ^ 8 + l) / 2 ^ 16 = q := by omega
  have middle : (q * 2 ^ 16 + p * 2 ^ 10 + r * 2 ^ 8 + l) / 2 ^ 10 % 4 = p := by omega
  rw [top, middle]
  refine ⟨by omega, by omega, by omega, by omega, fun high => ?_, one, single⟩
  cases wide with
  | true => rfl
  | false => exact absurd (two rfl) (by omega)

/-- R318: what tinfo reads of a FREED tensor and of any other, by its selector. -/
theorem State.tensorInfo_eq (s : State) (d : Tensor) (sel : Nat) : s.tensorInfo d sel =
    if d.st = .freed then (if sel = 1 then 0x200000000 else 0)
    else if sel = 0 then d.form
    else if sel = 1 then BitVec.ofNat 64 (d.rep.toNat + d.pending.toNat * 2 ^ 16 + (if d.st = .reforming then 2 ^ 32 else 0))
    else if sel = 2 then BitVec.ofNat 64 (d.fmt.code.toNat * 2 ^ 16 + d.rank * 2 ^ 20 + d.d0 * 2 ^ 40)
    else BitVec.ofNat 64 (s.inFlight d.handle) := by
  unfold State.tensorInfo
  by_cases freed : d.st = .freed
  · simp only [if_pos freed]
    rfl
  · simp only [if_neg freed]
    match sel with
    | 0 | 1 => rfl
    | 2 =>
      rw [Nat.add_comm (d.fmt.code.toNat * 2 ^ 16)]
      rfl
    | _ + 3 => rfl

/-- R317, R318: tsync of nothing and of a handle with no operation pending, what tinfo selects, and the fields of a form. -/
theorem tensorWaitAndInfo : Claims.TensorWaitAndInfo := by
  intro x
  refine ⟨?sync, ?info, fun d n => ?form⟩
  case sync =>
    intro s t u a issues ra
    constructor
    · intro all done
      rw [all] at ra
      exact next_of_issues issues (by
        simp only [ra, all, done, act_bind_ok, reduceIte, Bool.false_eq_true] <;> rfl)
    · intro d one named done
      exact next_of_issues issues (by
        simp only [ra, if_neg one, named, done, act_bind_ok, Bool.false_eq_true, reduceIte]
        split <;> rfl)
  case info =>
    refine tens_of_body (fun _ => rfl) (by simp) ?_
    rintro a b c s t ⟨d, r, named, write, rfl⟩
    simp only [named, State.tensorInfo_eq, write, act_bind_ok]
  case form =>
    obtain ⟨h1, h2, h3, h4, h5, h6⟩ := formWord_fields (d.scope == .pkg || d.scope == .sys) n
    exact ⟨h1, h2, h3, h4, fun high => by simpa using h5 high, h6⟩

/-- Settles O32: tnew and its handle, tfree and twiden, the elements, tsync and tinfo. -/
theorem tensorsMadeAndAccessed : Obligations.TensorsMadeAndAccessed :=
  ⟨tensorCreated, handlesAreNew, tensorFreedAndWidened, tensorElements, tensorWaitAndInfo⟩

/-! ### The arithmetic and the rearranging operations (R314, R315) -/

/-- R315: a reduction or a transpose is accepted on two handles that differ, of shapes that fit, where both repertoires have the bit. -/
theorem State.shaped_accepts {s : State} {h a : Word} {d p : Tensor} {bit : Nat} {ok : Tensor → Tensor → Bool} (work : TWork)
    (dst : s.named h = .ok d) (src : s.named a = .ok p) (differ : h ≠ a) (fits : ok d p = true)
    (dstBit : d.rep.getLsbD bit = true) (srcBit : p.rep.getLsbD bit = true) :
    s.shaped h a bit ok work = .ok (s.accept h a work) := by
  have both : (h != a && ok d p) = true := by simp [differ, fits]
  simp only [State.shaped, dst, src, both, needBit, dstBit, srcBit, require_true, act_bind_ok, reduceIte]

/-- R315: an instruction whose body is such an operation. -/
theorem tens_of_shaped {i : Instr} {x : Ext} {bit : Nat} {shape : Tensor → Tensor → Prop} {ok : Tensor → Tensor → Bool}
    {work : Rm → Bool → TWork} (runs : ∀ s, exec i s = .next (s.tens2 x [x.oa] fun d a _ s =>
      s.shaped d a bit ok (work (modeOf x.ro none s.slot.status) (immSat x))))
    (fits : ∀ d p, shape d p → ok d p = true) :
    Shape.Tens i x [x.oa] (some x.od) 12 (fun a _ _ s t => ∃ h d p, Shape.named x s h ∧ s.named h = .ok d ∧ s.named a = .ok p
      ∧ h ≠ a ∧ shape d p ∧ d.rep.getLsbD bit = true ∧ p.rep.getLsbD bit = true
      ∧ t = s.accept h a (work (modeOf x.ro none s.slot.status) (x.imm.getLsbD 0))) := by
  refine tens2_of_body runs (by simp) ?_
  rintro a b c s t ⟨h, d, p, reg, dst, src, differ, form, dstBit, srcBit, rfl⟩
  exact ⟨h, reg, State.shaped_accepts _ dst src differ (fits d p form) dstBit srcBit⟩

/-- R314, R315: tscale, tadd, and the four that take two handles of different shapes. -/
theorem tensorArithmeticAccepted : Claims.TensorArithmeticAccepted := by
  intro x
  refine ⟨?scale, ?add, ?shaped⟩
  case scale =>
    refine tens_of_body (fun _ => rfl) (by simp) ?_
    rintro a b c s t ⟨d, named, bit, rfl⟩
    simp only [named, needBit, bit, immSat, act_bind_ok, reduceIte]
  case add =>
    refine tens2_of_body (fun _ => rfl) (by simp) ?_
    rintro a b c s t ⟨h, d, p, q, reg, dst, src, other, one, two, dBit, pBit, qBit, rfl⟩
    have same : (d.dims == p.dims && p.dims == q.dims) = true := by simp [one, two]
    refine ⟨h, reg, ?_⟩
    simp only [dst, src, other, same, needBit, dBit, pBit, qBit, immSat, require_true, act_bind_ok, reduceIte]
  case shaped =>
    intro i bit shape work which
    simp only [List.mem_cons, List.not_mem_nil, or_false, Prod.mk.injEq] at which
    rcases which with ⟨rfl, rfl, rfl, rfl⟩ | ⟨rfl, rfl, rfl, rfl⟩ | ⟨rfl, rfl, rfl, rfl⟩ | ⟨rfl, rfl, rfl, rfl⟩
    · exact tens_of_shaped (ok := fun d a => d.dims == (a.d1, a.d2, a.d3, 1)) (fun _ => rfl) fun d a form => by simp [form]
    · exact tens_of_shaped (ok := fun d a => d.dims == (a.d0, a.d2, a.d3, 1)) (fun _ => rfl) fun d a form => by simp [form]
    · exact tens_of_shaped (ok := fun d a => d.dims == (a.d1, a.d2, a.d3, 1)) (fun _ => rfl) fun d a form => by simp [form]
    · exact tens_of_shaped (ok := fun d a => d.fmt == a.fmt && d.dims == (a.d1, a.d0, a.d2, a.d3)) (work := fun _ _ => .trans)
        (fun _ => rfl) fun d a form => by simp [form]

/-! ### tconv (R314) -/

/-- R314: tconv, with the mode and the saturation of its cue or without one. -/
theorem tensorConverted : Claims.TensorConverted := by
  intro x s t u a h d p cue issues ra reg dst src same dBit pBit
  obtain ⟨n, od, rfl⟩ := reg
  have fits : (d.dims == p.dims) = true := by simp [same]
  have issues' : s.Issues { tensChecks [x.oa] (some x.od) with
      formats := true, operand := (tensChecks [x.oa] (some x.od)).operand || convCueBad s.pendingCue }
      (scalarsOf [x.oa, x.od]) .drain t := by
    rw [cue, Bool.or_false]
    exact issues
  exact next_of_issues issues' (by
    simp only [ra, od, dst, src, fits, needBit, dBit, pBit, require_true, act_bind_ok, reduceIte] <;> rfl)

/-! ### tcopyin and tcopyout (R316) -/

/-- R316: a copy is accepted with the layout record that it has read, and its command sees what the context does. -/
theorem tens_of_tensorCopy {i : Instr} {x : Ext} {bit : Nat} {k : Acc} {work : Layout → TWork}
    (runs : ∀ s, exec i s = .next (s.tensorCopy x bit k work)) :
    Shape.Tens i x [x.oa, x.ob] none 12 (fun a b _ s t => ∃ d l u v, s.named a = .ok d ∧ s.readLayout b = .ok (l, u) ∧ l.fmt = d.fmt
      ∧ (l.e0, l.e1, l.e2, l.e3) = d.dims ∧ u.resolveWalk (elemBytes l.fmt) k l.walk = .ok v ∧ d.rep.getLsbD bit = true
      ∧ t = (v.accept a 0 (work l)).passOn v.self (v.origin.agent v.coreId (.tensor a))) := by
  refine tens_of_body runs (by simp) ?_
  rintro a b c s t ⟨d, l, u, v, named, record, fmt, extents, walk, has, rfl⟩
  have fits : (l.fmt == d.fmt && (l.e0, l.e1, l.e2, l.e3) == d.dims) = true := by simp [fmt, extents]
  simp only [named, record, fits, walk, needBit, has, require_true, act_bind_ok, reduceIte]

/-- R316: the two copies, each with its bit and its accesses. -/
theorem tensorCopies : Claims.TensorCopies := fun _ =>
  ⟨tens_of_tensorCopy fun _ => rfl, tens_of_tensorCopy fun _ => rfl⟩

/-! ### The events of tensors (R306-R308) -/

/-- R306: an operation that may be performed is attempted on its tensors. -/
theorem State.attemptAt_ready {s : State} {i : Nat} {o : TOp} {d a : Tensor} (refused : Bool) (here : s.tops[i]? = some o)
    (ready : o.ready (s.tops.take i) = true) (dst : s.tensors.find? (·.handle == o.dst) = some d)
    (src : s.tensors.find? (·.handle == (if o.src = 0 then o.dst else o.src)) = some a) :
    s.attemptAt i refused = some (o, d, s.perform o d a refused) := by
  simp only [State.attemptAt, here, ready, dst, src, Bool.not_true, Bool.false_eq_true, reduceIte]

/-- R306, R308: an operation performed, and a decision of the form manager. -/
theorem tensorEvents : Claims.TensorEvents := by
  constructor
  · intro s t i o d a here ready dst src done
    change execTensorOperationPerformed i s = _
    simp only [execTensorOperationPerformed, State.attemptAt_ready false here ready dst src, done]
  · intro s h form d found live
    change execFormManagerDecision h form s = _
    simp only [execFormManagerDecision, found, if_neg live]

/-- Settles O33: the arithmetic and the rearranging, tconv, the copies, and the events. -/
theorem tensorOperations : Obligations.TensorOperations :=
  ⟨tensorArithmeticAccepted, tensorConverted, tensorCopies, tensorEvents⟩

end Sys2Proof.TensorHandles
end

section
/-! SUPPORT. The matrix unit (R323-R339): its instructions, and the running of their commands. -/

open Sys2Proof Sys2Proof.Machine Sys2Proof.ParallelExecution

namespace Sys2Proof.MatrixUnit

/-! ### Checks that the MX instructions share -/

/-- An instruction that passes its decoding checks has no reserved operand. -/
theorem operand_of_decodes {s : State} {c : Checks} (h : s.decodeTrap c = .ok ()) : c.operand = false := by
  cases reserved : c.operand with
  | false => rfl
  | true =>
    unfold State.decodeTrap at h
    rw [reserved, if_pos rfl] at h
    have h := act_of_check (act_of_check h)
    exact nomatch h

/-- What drains issues with the cue that was pending: closing a body leaves it. -/
theorem pendingCue_of_issues {s t : State} {c : Checks} {ops : List SOpd} (h : s.Issues c ops .drain t) :
    t.pendingCue = s.pendingCue := by
  obtain ⟨-, rfl, -, -⟩ := h
  simp only [paceOf, ite_self, State.paced, State.pendingCue, State.closeBody_slot]

/-- A requirement that is not met traps, whatever was to follow. -/
theorem after_unmet {β : Type} (cause : BitVec 16) (addr : Word) (rest : Unit → Act β) :
    (require false cause addr >>= rest) = .error (.trap { cause := cause, addr := addr }) := rfl

/-- R327: a context that holds the claim passes the check of it. -/
theorem claimed_of_holder {s : State} (h : s.core.mx.claim = some s.slot.par.ident) : s.claimed = .ok () := by
  simp [State.claimed, h]

/-- R327: one that does not hold it traps. -/
theorem claimed_of_other {s : State} (h : s.core.mx.claim ≠ some s.slot.par.ident) :
    s.claimed = .error (.trap { cause := 0x0A00 }) := by
  have fails : (s.core.mx.claim == some s.slot.par.ident) = false := by simpa using h
  rw [State.claimed, fails]
  rfl

/-! ### mxr and mxz (R335, R336) -/

/-- R335: the bits of a configuration past bit 4 are zero in the words below 32. -/
theorem field_past_four (w : Word) : (field w 5 59 == 0) = decide (w.toNat < 32) := by
  have bound : w.toNat / 2 ^ 5 < 2 ^ 59 := by have := w.isLt; omega
  rw [field, Nat.mod_eq_of_lt bound, Bool.eq_iff_iff, beq_iff_eq, decide_eq_true_eq]
  omega

/-- R335: mxr by its configuration word, by its neighbours, and by who holds the claim. -/
theorem matrixClaimed : Claims.MatrixClaimed := by
  intro x s t u v w issues read
  refine ⟨?wide, ?off, ?taken, ?held⟩
  case wide =>
    intro high
    exact next_of_issues_trap issues (by simp only [read, field_past_four, decide_false, Nat.not_lt.2 high, act_bind_ok, after_unmet])
  case off =>
    intro low off
    exact next_of_issues_trap issues (by
      simp only [read, field_past_four, low, off, decide_true, Bool.not_true, act_bind_ok, require_true, after_unmet])
  case taken =>
    intro low on free kept write
    have mine : (u.core.mx.claim.isNone || u.core.mx.claim == some u.slot.par.ident) = true := by
      rcases free with h | h <;> simp [h]
    exact next_of_issues issues (by
      simp only [read, field_past_four, low, on, mine, kept, write, decide_true, Bool.not_false, Bool.and_false, Bool.false_eq_true,
        act_bind_ok, require_true, reduceIte])
  case held =>
    intro i low on claim other write
    have theirs : (u.core.mx.claim.isNone || u.core.mx.claim == some u.slot.par.ident) = false := by simp [claim, other]
    exact next_of_issues issues (by
      simp only [read, field_past_four, low, on, theirs, write, decide_true, Bool.not_false, Bool.false_and, Bool.false_eq_true,
        act_bind_ok, require_true, reduceIte])

/-- R336: the fields of the word that gives an accumulator's shape. -/
theorem shape_fields {w : Word} {m n : Nat} (shape : w.toNat = m + n * 2 ^ 16) (rows : m ≤ 4096) (cols : n ≤ 96) :
    field w 0 16 = m ∧ field w 16 16 = n ∧ field w 32 32 = 0 := by
  simp only [field, shape]
  omega

/-- R336: mxz, once its shape and its tile pass, binds the accumulator and queues its zeroing. -/
theorem matrixZeroed : Claims.MatrixZeroed := by
  intro x s t u v w e m n tile hs read claim shape m1 m2 n1 n2 armed fits push
  have issues : s.Issues { specChecks [x.ob] [] with operand := (specChecks [x.ob] []).operand || !tileSpec x.od }
      (scalarsOf [x.ob]) .drain t := by simpa [tileSpec, tile] using hs
  obtain ⟨rows, cols, rest⟩ := shape_fields shape m2 n2
  refine next_of_issues issues ?_
  simp [read, claimed_of_holder claim, tile, rows, cols, rest, m1, m2, n1, n2, armed, fits, push]

/-! ### mxb and mxa (R337) -/

/-- A tile is no scalar: nothing is read of it. -/
theorem mxRead_tile {s : State} {p : Spec} {e : Nat} (tile : tileOf p = some e) : s.mxRead p = .ok (0, s) := by
  cases p with
  | t n => rfl
  | s o => exact nomatch tile
  | v o => exact nomatch tile

/-- An operand that is left out reads as zero. -/
theorem mxRead_zero (s : State) : s.mxRead Spec.zero = .ok (0, s) := rfl

/-- What issues as an mxb or an mxa reads its origin as a scalar operand: its checks refuse any other class. -/
theorem mxRead_origin {s t : State} {x : Ext} {bit : Nat} {ops : List SOpd} {p : Pace} {r : Word × State}
    (issues : s.Issues (s.mxChecks x bit) ops p t) (read : t.readS (opdOf x.od) = .ok r) : t.mxRead x.od = .ok r := by
  have good : srcSpec x.od = true := by
    have h := operand_of_decodes issues.1
    simp only [State.mxChecks, Bool.or_eq_false_iff, Bool.not_eq_false', Bool.and_eq_true] at h
    obtain ⟨⟨⟨-, ⟨-, od⟩, -⟩, -⟩, -⟩ := h
    exact od
  generalize x.od = od at good read ⊢
  cases od with
  | s o => exact read
  | v o => exact nomatch good
  | t n => exact nomatch good

/-- R334, R337: an operand in an own READY tile that is long enough, without scales. -/
theorem mxOperands_own {s : State} {x : Ext} {c : BitVec 24} {f : Fmt} {bit e image scaleImage k0 : Nat} {a b org : Word}
    (tile : tileOf x.oa = some e) (unscaled : x.ob = Spec.zero) (armed : s.tileArmed e = .ok ())
    (fits : image ≤ s.tileLen (s.tteHome s.coreId e)) :
    s.mxOperands x c f false bit a b org image scaleImage k0
      = .ok (.tile (s.tteHome s.coreId e).1 (s.tteHome s.coreId e).2, .none) := by
  simp [State.mxOperands, State.mxSource, tile, unscaled, armed, fits]

/-- Tiles are no handles: no operation on a handle is accepted for them. -/
theorem acceptHandles_tile (s : State) (c e : Nat) : s.acceptHandles (.tile c e) .none = s := rfl

/-- R337: a command without a tensor scale keeps none. -/
theorem scaleBits_none {cue : BitVec 24} (h : cueTsf cue = 0) : scaleBits cue 0 = 0 := by
  simp [scaleBits, h]

/-- R328: no chunk has more than 96 columns. -/
theorem chunkN_le (f : Fmt) : chunkN f ≤ 96 := by unfold chunkN; split <;> omega

/-- R328: no chunk has more than 128 rows. -/
theorem chunkK_le (f : Fmt) : chunkK f ≤ 128 := by unfold chunkK; split <;> omega

/-- R337: mxb and mxa with their operand in an own tile; mxa without a current chunk. -/
theorem matrixQueued : Claims.MatrixQueued := by
  intro x s t u v cue e org pending _ _ noScale tile ob oc once origin claim
  have ra : t.mxRead x.oa = .ok (0, t) := mxRead_tile tile
  have rb : t.mxRead x.ob = .ok (0, t) := by rw [ob]; rfl
  have rc : t.mxRead x.oc = .ok (0, t) := by rw [oc]; rfl
  refine ⟨?b, ?a, ?none_⟩
  case b =>
    intro n k issues sizes n1 n2 k1 k2 own armed fits push
    have taken : t.pendingCue = some cue := (pendingCue_of_issues issues).trans pending
    have nBound := Nat.le_trans n2 (chunkN_le _)
    have kBound := Nat.le_trans k2 (chunkK_le _)
    have hn : x.imm.toNat % 128 = n := by omega
    have hk : x.imm.toNat / 256 % 256 = k := by omega
    have ok : (false || (decide (1 ≤ n) && decide (n ≤ chunkN (cueBf cue)) && decide (1 ≤ k) && decide (k ≤ chunkK (cueBf cue)))) = true := by
      simp [n1, n2, k1, k2]
    refine next_of_issues issues ?_
    simp only [taken, Option.getD_some, once, ra, rb, rc, mxRead_origin issues origin, claimed_of_holder claim, own, hn, hk, ok,
      mxOperands_own tile ob armed fits, acceptHandles_tile, scaleBits_none noScale, Ext.acqScope, push, require_true, act_bind_ok]
  case a =>
    intro k acc m n issues sizes k1 k2 current bound own armed fits push
    have taken : t.pendingCue = some cue := (pendingCue_of_issues issues).trans pending
    have kBound := Nat.le_trans k2 (chunkK_le _)
    have hk : x.imm.toNat / 256 % 256 = k := by omega
    have ok : (false || (decide (1 ≤ k) && decide (k ≤ chunkK (cueAf cue)))) = true := by simp [k1, k2]
    obtain ⟨c, hc⟩ := Option.isSome_iff_exists.1 current
    refine next_of_issues issues ?_
    simp only [taken, Option.getD_some, once, ra, rb, rc, mxRead_origin issues origin, claimed_of_holder claim, own, hk, ok, hc, bound,
      mxOperands_own tile ob armed fits, acceptHandles_tile, scaleBits_none noScale, Ext.acqScope, push, require_true, act_bind_ok]
  case none_ =>
    intro current issues
    refine next_of_issues_trap issues ?_
    simp only [once, ra, rb, rc, mxRead_origin issues origin, claimed_of_holder claim, current, act_bind_ok]
    rfl

/-! ### mxo and mxw (R338, R339) -/

/-- R327, R339: an mxw that waits already, or whose context holds the claim, goes on past the check of the claim. -/
theorem after_claim {β : Type} {s : State} (asked : s.slot.st = .waiting ∨ s.core.mx.claim = some s.slot.par.ident) (rest : Act β) :
    (if s.slot.st = .waiting then rest else s.claimed >>= fun _ => rest) = rest := by
  rcases asked with h | h
  · rw [if_pos h]
  · rw [claimed_of_holder h, act_bind_ok, ite_self]

/-- R338, R339: mxo by its checks; mxw by the claim, the kernel, and the commands that it waits for. -/
theorem matrixOutAndWait : Claims.MatrixOutAndWait := by
  intro x s t
  refine ⟨?out, ?unclaimed, ?done, ?ended⟩
  case out =>
    intro v e m n d type tile hs claim bound armed other fits push
    have issues : s.Issues { reserved := !(x.et == .fp32 || x.et == .bf16 || x.et == .fp16), operand := !tileSpec x.od } [] .drain t := by
      have kind : (x.et == .fp32 || x.et == .bf16 || x.et == .fp16) = true := by rcases type with h | h | h <;> rw [h] <;> rfl
      simpa [kind, tileSpec, tile] using hs
    have passes : (t.tteHome t.coreId d != t.tteHome t.coreId e
        && decide (elemBytes x.et * m * n ≤ t.tileLen (t.tteHome t.coreId d))) = true := by simp [other, fits]
    refine next_of_issues issues ?_
    simp only [claimed_of_holder claim, bound, tile, Option.getD_some, armed, passes, Ext.relScope, push, require_true, act_bind_ok]
  case unclaimed =>
    intro issues fresh none_
    exact next_of_issues_trap issues (by rw [if_neg fresh, claimed_of_other none_]; rfl)
  case done =>
    intro u issues asked runs idle clean write
    exact next_of_issues issues ((after_claim asked _).trans (by
      simp only [runs, idle, clean, write, act_bind_ok, Bool.not_true, Bool.false_eq_true, reduceIte]))
  case ended =>
    intro u issues asked ended write
    exact next_of_issues issues ((after_claim asked _).trans (by
      simp only [ended, write, act_bind_ok, Bool.not_false, reduceIte]))

/-- Settles O34: mxr, mxz, mxb and mxa, mxo and mxw, each by its checks. -/
theorem matrixInstructions : Obligations.MatrixInstructions := ⟨matrixClaimed, matrixZeroed, matrixQueued, matrixOutAndWait⟩

/-! ### The head of a queue (R323, R336-R338) -/

/-- R323: a head that has its turn, that is not to be discarded and that runs to its end leaves the queue. -/
theorem mxTurn_of_run {s t : State} {core : Nat} {q : MxCmd} {takes : MxOp → Bool} (head : s.mxHead core = some q)
    (kind : takes q.op = true) (kept : s.discards core q.from_ true = false) (run : s.mxRun core q = some (t, none)) :
    s.mxTurn core takes = some (t.mxPop core q.from_.id) := by
  simp only [State.mxTurn, head, kind, kept, run, Bool.not_true, Bool.false_eq_true, reduceIte]

/-- R331: a chunk that waits to go south and whose formats are those of the neighbour's head is loaded there. -/
theorem forwardSouth_loads {s : State} {c core n k : Nat} {b : Chunk} {bs : List Chunk} {q : MxCmd} {src sc : MxSource} {org ts : Word}
    {cue : BitVec 24} {acq : Option Scope} {fwd : Bool} (south : neighbour c .s = some core)
    (waiting : (s.coreAt c).mx.southward = b :: bs) (head : s.mxHead core = some q)
    (op : q.op = .loadB src sc org cue ts n k acq true fwd) (kept : s.discards core q.from_ true = false)
    (same : sameFormats b.cue cue = true) :
    s.forwardSouth c = some ((((s.mapMx c fun m => { m with southward := bs }).acquireFor (q.from_.agent core .matrix) acq).loadChunk
      core b q.epoch fwd).mxPop core q.from_.id) := by
  simp only [State.forwardSouth, south, waiting, head, op, kept, same, Bool.false_eq_true, reduceIte]

/-- R325: a head that stops for good ends as its stop says, and a page that was refused is asked for no longer. -/
theorem mxFault_of_stop {s t : State} {core : Nat} {q : MxCmd} {stop e : CmdStop} {refused : Bool} (head : s.mxHead core = some q)
    (kept : s.discards core q.from_ true = false) (run : s.mxRun core q = some (t, some stop)) (ends : stop.ending refused = some e) :
    s.mxFault core q.from_.id refused = some (((t.mxPop core q.from_.id).ends core q.from_ true e).refusedAt core stop) := by
  simp only [State.mxFault, head, kept, run, ends, bne_self_eq_false, Bool.or_self, Bool.false_eq_true, reduceIte, Option.map_some]

/-- R323, R325, R331, R336-R338: the head of a matrix queue runs, takes what is forwarded to it, or faults. -/
theorem matrixEvents : Claims.MatrixEvents := by
  intro s t core q head
  refine ⟨?runs, ?forwarded, ?faults⟩
  case runs =>
    intro kept run
    have leaves {takes : MxOp → Bool} (kind : takes q.op = true) :
        (.next ((s.mxTurn core takes).getD s) : Result) = .next (t.mxPop core q.from_.id) := by
      rw [mxTurn_of_run head kind kept run, Option.getD_some]
    refine ⟨?_, ?_, ?_, ?_⟩
    · intro e m n op
      exact leaves (by rw [op])
    · intro src sc org c ts n k acq fwd op
      exact leaves (by rw [op])
    · intro src sc org c ts k acq fwd e m n op
      exact leaves (by rw [op])
    · intro e m n d et rm clear rel op
      exact leaves (by rw [op])
  case forwarded =>
    intro c south b bs src sc org cue ts n k acq fwd waiting op kept same
    change execChunkForward c s = _
    rw [execChunkForward, State.forward, forwardSouth_loads south waiting head op kept same, Option.getD_some]
  case faults =>
    intro stop f a refused kept run ends
    change execCommandFault core q.from_.id refused s = _
    rw [execCommandFault, mxFault_of_stop head kept run ends]
    rfl

/-! ### The accumulator (R332, R333) -/

/-- R332: a K-block has at least one element. -/
theorem kBlock_pos (c : BitVec 24) : 1 ≤ kBlock c := by
  unfold kBlock chunkK
  split
  · split <;> omega
  · omega

/-- R332: no elements reach no K-block. -/
theorem blocksOf_zero (c : BitVec 24) : blocksOf c 0 = 0 := by
  have := kBlock_pos c
  exact Nat.div_eq_of_lt (by omega)

/-- R332: no more elements than one K-block holds, but at least one, reach one K-block. -/
theorem blocksOf_one {c : BitVec 24} {k : Nat} (some_ : 1 ≤ k) (fits : k ≤ kBlock c) : blocksOf c k = 1 :=
  Nat.div_eq_of_lt_le (by omega) (by omega)

/-- R332, R333: an accumulator element where no index is common, and where the common ones are of one K-block. -/
theorem accumulatorElements : Claims.AccumulatorElements := by
  intro a b r n acc
  constructor
  · intro none_
    simp only [accumulated, none_, blocksOf_zero, List.range_zero, List.foldl_nil]
  · intro some_ fits
    simp only [accumulated, blocksOf_one some_ fits, List.range_one, List.foldl_cons, List.foldl_nil]
    split <;> rfl

/-- Settles O35: the events of a matrix queue, and the accumulator's elements. -/
theorem matrixCommandsRun : Obligations.MatrixCommandsRun := ⟨matrixEvents, accumulatorElements⟩

end Sys2Proof.MatrixUnit
end

section
/-! SUPPORT. The bank transforms (R347, R348). -/

open Sys2Proof Sys2Proof.Machine Sys2Proof.ParallelExecution

namespace Sys2Proof.BankTransforms

/-- What follows an act that is made only where it is asked for, and otherwise comes to a given result, follows what the two come to. -/
theorem after_asked {α β : Type} {asked : Bool} {act : Act α} {z r : α} (came : (if asked then act else .ok z) = .ok r)
    (rest : α → Act β) : (if asked then act >>= rest else rest z) = rest r := by
  cases asked with
  | true =>
    rw [if_pos rfl] at came ⊢
    rw [came, act_bind_ok]
  | false =>
    cases came
    rfl

/-- R347, R348: a transform whose types and range pass their checks writes the new codes of the elements that it has read, as
writes of a bank transform, counts their events and goes on. -/
theorem transform_writes {x : Ext} {oa types : Bool} {block e : Nat} {f : Word → State → List Nat → List Out}
    {s t u v w y : State} {a r : Word} {bs : List Byte} {outs : List Out} (tile : tileOf x.od = some e) (good : types = true)
    (issues : s.Issues (specChecks ((if oa then [x.oa] else []) ++ [x.ob]) []) (scalarsOf ((if oa then [x.oa] else []) ++ [x.ob])) .drain t)
    (once : t.twiceCheck (linksOf (scalarsOf ((if oa then [x.oa] else []) ++ [x.ob]))) = .ok ())
    (ra : (if oa then t.readS (opdOf x.oa) else .ok (0, t)) = .ok (a, u)) (rb : u.readS (opdOf x.ob) = .ok (r, v))
    (starts : rangeOff r % 128 = 0) (ends : rangeLen r % 128 = 0) (some_ : rangeLen r ≠ 0) (whole : rangeLen r % block = 0)
    (ready : v.tileReady e = .ok ()) (fits : rangeOff r + rangeLen r ≤ v.tileLen (v.tteHome v.coreId e))
    (read : v.rangeRead (v.tteHome v.coreId e) (rangeOff r) (rangeLen r) = .ok (bs, w))
    (new : f a w (unpackCodes x.et (rangeLen r * 8 / elemStorage x.et) bs) = outs)
    (write : w.rangeWrite (w.tileKey (v.tteHome v.coreId e) (rangeOff r)) (wordsOfBytes (packCodes x.et (outs.map (·.code)))) = .ok y) :
    s.transform x oa types block f = (((y.bankWrites w.seq).countEvents (outs.map (·.ev))).advance 12).completed := by
  have issues' : s.Issues { specChecks ((if oa then [x.oa] else []) ++ [x.ob]) [] with
      operand := (specChecks ((if oa then [x.oa] else []) ++ [x.ob]) []).operand || !tileSpec x.od }
      (scalarsOf ((if oa then [x.oa] else []) ++ [x.ob])) .drain t := by simpa [tileSpec, tile] using issues
  have passes : (types && rangeOff r % 128 == 0 && rangeLen r % 128 == 0 && rangeLen r != 0
      && decide (rangeOff r + rangeLen r ≤ v.tileLen (v.tteHome v.coreId e)) && rangeLen r % block == 0) = true := by
    simp [good, starts, ends, some_, fits, whole]
  unfold State.transform
  refine State.issue_ok issues' ?_
  simp only [once, act_bind_ok]
  refine (after_asked ra _).trans ?_
  simp only [rb, tile, Option.getD_some, ready, passes, read, new, write, require_true, act_bind_ok]

/-- Settles O37: each of the five transforms has its types, its block and its rule. -/
theorem bankTransforms : Obligations.BankTransforms := by
  intro x e tile i oa block types f which s t u v w y a r off len bs good issues once ra rb start extent starts ends some_ whole ready
    fits read outs write
  subst start extent
  have does (g : Word → State → List Nat → List Out)
      (new : g a w (unpackCodes x.et (rangeLen r * 8 / elemStorage x.et) bs) = outs) :
      (.next (s.transform x oa types block g) : Result)
        = .next (((y.bankWrites w.seq).countEvents (outs.map (·.ev))).advance 12).completed :=
    congrArg _ (transform_writes tile good issues once ra rb starts ends some_ whole ready fits read new write)
  simp only [List.mem_cons, List.not_mem_nil, or_false, Prod.mk.injEq] at which
  rcases which with ⟨rfl, rfl, rfl, rfl, rfl⟩ | ⟨rfl, rfl, rfl, rfl, rfl⟩ | ⟨rfl, rfl, rfl, rfl, rfl⟩ | ⟨rfl, rfl, rfl, rfl, rfl⟩
    | ⟨rfl, rfl, rfl, rfl, rfl⟩
  all_goals exact does _ rfl

end Sys2Proof.BankTransforms
end
